-- ==== Sys2Proof/Word.lean ====
section
/-! DEFINITION. The word types of the block (00_scope.md section 6): bytes and halfwords, all unsigned. -/

namespace Sys2Proof

/-- An unsigned 8-bit value, 0..255. -/
abbrev Byte := BitVec 8

/-- An unsigned 16-bit value, 0..65535 (the source's "16-bit value"). -/
abbrev Halfword := BitVec 16

/-- The payload capacity of one instance: `0 <= CAPACITY <= 65534`. The bound is part of the type, because an
instance outside it does not exist (00_scope.md R4, 60_exceptions.md R187). -/
abbrev Capacity := Fin 65535

end Sys2Proof
end

