-- ==== Sys2Proof/Config.lean ====
section
/-! DEFINITION. What an implementation fixes (00_scope.md R4 to R7) and the values the spec leaves open. -/

namespace Sys2Proof.Config

/-- The fixed framing-field width in bytes (00_scope.md R5). -/
abbrev headerSize : Nat := 10

/-- The protocol constant MAGIC that `header` holds once a packet is finalised (00_scope.md R6). -/
abbrev magic : Halfword := 0x5555#16

/-- The byte both header positions must carry, MAGIC's two equal lanes (30_encoding.md R75). -/
abbrev magicByte : Byte := 0x55#8

/-- The reflected CRC polynomial (00_scope.md R7). -/
def crcPoly : Halfword := 0xA001#16

/-- The CRC accumulator before the first byte: a named configuration field (00_scope.md R7). Its value is the spec's
own decision D5, which nothing outside the spec confirms. UNVERIFIED (log 5), unsafe: every checksum value rests on it. -/
def crcInit : Halfword := 0x0000#16

/-- The capacity of the instance that `State.reset` describes. The spec gives CAPACITY no value (00_scope.md R4: a
parameter of the model). DESIGN CHOICE (log 4), unsafe for a claim about `State.reset` alone; no operation and no other
state depends on it. -/
def resetCapacity : Capacity := 8

/-- The reserved request code of the identity exchange (30_encoding.md R76). -/
def requestIdentity : Halfword := 0x0001#16

/-- The conventional response code "success" (30_encoding.md R77). -/
def responseSuccess : Halfword := 0x0001#16

/-- The byte GET_DATA returns for an index at or above `length`: "a free draw per call, not `data[a]` and not 0x00"
(43_reset_access.md R157, 93_implementation_defined.md U3). Applied to the number of the draw. It has no body, so no
proof can know a value of it (log 3), safe. -/
opaque unspecifiedByte : Nat → Byte

/-- The textual serialisation of a Capability Descriptor (44_capability_descriptor.md R174): the open parameter
DESCRIPTOR_TEXT_ENCODING of the external collaborator, of major, minor, patch, maximum packet size and name. It has no
body (log 10), safe. -/
opaque descriptorTextEncoding : Byte → Byte → Byte → Halfword → List Byte → List Byte

end Sys2Proof.Config
end

