-- ==== Sys2Proof/Machine/Lanes.lean ====
section
/-! DEFINITION. Byte lanes of a halfword and the little-endian byte order (00_scope.md section 6, 20_memory.md R53). -/

namespace Sys2Proof

/-- `lo8(v) = v[7:0]`. -/
def lo8 (v : Halfword) : Byte := v.setWidth 8

/-- `hi8(v) = v[15:8]`. -/
def hi8 (v : Halfword) : Byte := (v >>> 8).setWidth 8

/-- `zext_16(b)`. -/
def zext16 (b : Byte) : Halfword := b.setWidth 16

/-- The concatenation `{hi, lo} = lo + 256 * hi` (30_encoding.md R72). -/
def halfword (hi lo : Byte) : Halfword := (zext16 hi <<< 8) ||| zext16 lo

/-- `v[7:0] <- b`: only that lane changes (20_memory.md R54). -/
def withLo8 (v : Halfword) (b : Byte) : Halfword := halfword (hi8 v) b

/-- `v[15:8] <- b`: only that lane changes (20_memory.md R54). -/
def withHi8 (v : Halfword) (b : Byte) : Halfword := halfword b (lo8 v)

/-- The two bytes of a halfword, low byte first (20_memory.md R53). -/
def leBytes (v : Halfword) : List Byte := [lo8 v, hi8 v]

end Sys2Proof
end

