-- ==== Sys2Proof/Syntax.lean ====
section
/-! DEFINITION. The operations of the block (30_encoding.md R79) and the command record that selects one. -/

namespace Sys2Proof

/-- The 19 operations of spec/opcode_table.json, with the operands each of them uses and no others. -/
inductive Instr where
  /-- RESET (43_reset_access.md R150). -/
  | reset
  /-- RESET_LAZY (43_reset_access.md R151). -/
  | resetLazy
  /-- CRC16 `q` (40_checksum.md R103). -/
  | crc16 (q : List Byte)
  /-- SET_REQUEST `a` (41_outbound.md R110). -/
  | setRequest (a : Halfword)
  /-- SET_RESPONSE `a` (41_outbound.md R111). -/
  | setResponse (a : Halfword)
  /-- ADD_DATA `q` (41_outbound.md R112). -/
  | addData (q : List Byte)
  /-- PACK (41_outbound.md R113). -/
  | pack
  /-- PACK_DATA `a`, `q` (41_outbound.md R114). -/
  | packData (a : Halfword) (q : List Byte)
  /-- PACK_ERROR `a`, `b`, `q` (41_outbound.md R115). -/
  | packError (a b : Halfword) (q : List Byte)
  /-- PACK_ID `q` (41_outbound.md R116). -/
  | packId (q : List Byte)
  /-- BYTES (41_outbound.md R117). -/
  | bytes
  /-- GET_BYTE (41_outbound.md R118). -/
  | getByte
  /-- CONSTRUCT `b` (42_inbound.md R130). -/
  | construct (b : Byte)
  /-- GET_REQUEST (43_reset_access.md R152). -/
  | getRequest
  /-- GET_RESPONSE (43_reset_access.md R153). -/
  | getResponse
  /-- GET_LENGTH (43_reset_access.md R154). -/
  | getLength
  /-- GET_CHECKSUM (43_reset_access.md R155). -/
  | getChecksum
  /-- GET_STATUS (43_reset_access.md R156). -/
  | getStatus
  /-- GET_DATA `a` (43_reset_access.md R157). -/
  | getData (a : Halfword)
  deriving DecidableEq, Repr

/-- A command as the driver issues it: the record `(op, a, b, q)` of 30_encoding.md R79. -/
structure Command where
  /-- The 8-bit operation code. -/
  op : Byte
  /-- The first halfword operand. -/
  a : Halfword
  /-- The second halfword operand. -/
  b : Halfword
  /-- The byte-sequence operand, of any finite length. -/
  q : List Byte
  deriving DecidableEq, Repr

/-- What the decoder reads from a command: one of the 19 operations, or the refusal by name of an operation code
outside the table (30_encoding.md R80). -/
inductive Decoded where
  | instr (i : Instr)
  | unknownOperation (op : Byte)
  deriving DecidableEq, Repr

end Sys2Proof
end

