-- ==== Sys2Proof/Decode.lean ====
section
/-! DEFINITION. Decoding a command and encoding an operation (30_encoding.md R79, R80, R83), and the command as bytes. -/

namespace Sys2Proof

/-- "A decoder selects the operation by `op` alone" (30_encoding.md R79); operands an operation does not use are
ignored; a code outside the table is refused by name (R80). Total on every command. -/
def decode (c : Command) : Decoded :=
  match c.op with
  | 0x01#8 => .instr .reset
  | 0x02#8 => .instr .resetLazy
  | 0x10#8 => .instr (.crc16 c.q)
  | 0x20#8 => .instr (.setRequest c.a)
  | 0x21#8 => .instr (.setResponse c.a)
  | 0x22#8 => .instr (.addData c.q)
  | 0x23#8 => .instr .pack
  | 0x24#8 => .instr (.packData c.a c.q)
  | 0x25#8 => .instr (.packError c.a c.b c.q)
  | 0x26#8 => .instr (.packId c.q)
  | 0x28#8 => .instr .bytes
  | 0x29#8 => .instr .getByte
  | 0x30#8 => .instr (.construct (lo8 c.a))
  | 0x40#8 => .instr .getRequest
  | 0x41#8 => .instr .getResponse
  | 0x42#8 => .instr .getLength
  | 0x43#8 => .instr .getChecksum
  | 0x44#8 => .instr .getStatus
  | 0x45#8 => .instr (.getData c.a)
  | op => .unknownOperation op

/-- The command record of an operation, unused operands zero (30_encoding.md R79, R83). -/
def encode : Instr → Command
  | .reset => ⟨0x01#8, 0, 0, []⟩
  | .resetLazy => ⟨0x02#8, 0, 0, []⟩
  | .crc16 q => ⟨0x10#8, 0, 0, q⟩
  | .setRequest a => ⟨0x20#8, a, 0, []⟩
  | .setResponse a => ⟨0x21#8, a, 0, []⟩
  | .addData q => ⟨0x22#8, 0, 0, q⟩
  | .pack => ⟨0x23#8, 0, 0, []⟩
  | .packData a q => ⟨0x24#8, a, 0, q⟩
  | .packError a b q => ⟨0x25#8, a, b, q⟩
  | .packId q => ⟨0x26#8, 0, 0, q⟩
  | .bytes => ⟨0x28#8, 0, 0, []⟩
  | .getByte => ⟨0x29#8, 0, 0, []⟩
  | .construct b => ⟨0x30#8, zext16 b, 0, []⟩
  | .getRequest => ⟨0x40#8, 0, 0, []⟩
  | .getResponse => ⟨0x41#8, 0, 0, []⟩
  | .getLength => ⟨0x42#8, 0, 0, []⟩
  | .getChecksum => ⟨0x43#8, 0, 0, []⟩
  | .getStatus => ⟨0x44#8, 0, 0, []⟩
  | .getData a => ⟨0x45#8, a, 0, []⟩

/-- A command laid out as bytes: `op`, then `a` and `b` low byte first, then `q`. The spec gives the record and no
layout; DESIGN CHOICE (log 9), used only to number a command's bits. -/
def Command.toBytes (c : Command) : List Byte := c.op :: (leBytes c.a ++ leBytes c.b ++ c.q)

/-- The command that bytes in that layout spell. Bytes that are not there read as zero, so it is total. -/
def Command.ofBytes (bs : List Byte) : Command :=
  { op := bs.getD 0 0
    a := halfword (bs.getD 2 0) (bs.getD 1 0)
    b := halfword (bs.getD 4 0) (bs.getD 3 0)
    q := bs.drop 5 }

/-- The `n` low bytes of a number, least significant first. -/
def wordBytes : Nat → Nat → List Byte
  | 0, _ => []
  | n + 1, w => BitVec.ofNat 8 w :: wordBytes n (w / 256)

/-- The command whose bits, numbered as spec/opcode_table.json numbers them (bit 0 the least significant bit of `op`),
are the `nbits` low bits of `w`; every bit above is zero. -/
def Command.ofWord (nbits w : Nat) : Command :=
  Command.ofBytes (wordBytes ((nbits + 7) / 8) (w % 2 ^ nbits))

/-- The operation the decoder reads from a table word, none where it refuses. -/
def decodeTableWord (nbits w : Nat) : Option Instr :=
  match decode (Command.ofWord nbits w) with
  | .instr i => some i
  | .unknownOperation _ => none

end Sys2Proof
end

