-- ==== Sys2Proof/Machine/State.lean ====
section
/-! DEFINITION. The state of one block instance (10_state.md R20), what stops a step, and the reset state. -/

namespace Sys2Proof.Machine

/-- The eight values of the status register (10_state.md R29). Their codes are in Flags.lean. -/
inductive Status where
  | ok
  | packetBuilding
  | packetReceived
  | getByteFinished
  | headerBytesNotFound
  | checksumError
  | packetOverflow
  | invalidDataLengthDetected
  deriving DecidableEq, Repr

/-- The result of an operation, the record `(st, v, r)` of 30_encoding.md R81. -/
structure Result where
  /-- The result status. -/
  st : Status
  /-- The value; 0x0000 for an operation that returns none (93_implementation_defined.md U13). -/
  v : Halfword
  /-- The byte sequence, "meaningful only for BYTES": `none` for every other operation (log 6). -/
  r : Option (List Byte)
  deriving DecidableEq, Repr

/-- The payload buffer's cells as (index, byte) pairs, indices strictly rising and no byte 0x00: a cell that is not
listed holds 0x00, the content after power-on (10_state.md R35). -/
abbrev Memory := List Host.Cell

/-- The state of one instance. The nine members of 10_state.md R20, the instance's parameter `capacity`, and three
fields of the model's own. -/
structure State where
  /-- CAPACITY of this instance, fixed when it is built: a parameter, carried here because a step takes a state only
  (00_scope.md R4, log 4). No operation changes it. -/
  capacity : Capacity
  /-- Magic value, 0x5555 once finalised (10_state.md R21). -/
  header : Halfword
  /-- CRC-16 of the frame (10_state.md R22). -/
  checksum : Halfword
  /-- Application-defined opcode (10_state.md R23). -/
  request : Halfword
  /-- Application-defined result code (10_state.md R24). -/
  response : Halfword
  /-- Count of valid payload bytes (10_state.md R25). -/
  length : Halfword
  /-- The payload buffer (10_state.md R26). -/
  data : Memory
  /-- Position in the frame of the next byte, shared by both directions (10_state.md R27). A natural number in place of
  17 bits, as R27 allows (log 7). -/
  internalCounter : Nat
  /-- Count of payload bytes CONSTRUCT has written (10_state.md R28). -/
  dataLengthCounter : Halfword
  /-- Most recent outcome of an operation that records one (10_state.md R29). -/
  status : Status
  /-- The model's own: commands issued by the driver and not yet accepted, oldest first (00_scope.md R8, log 1). -/
  commands : List Command
  /-- The model's own: the result output, of the most recent operation (30_encoding.md R81, log 2). -/
  result : Option Result
  /-- The model's own: how many free values have been drawn (43_reset_access.md R157, log 3). -/
  draws : Nat
  deriving DecidableEq, Repr

/-- What stops the machine for a reason of the hardware's own: nothing. Every error of the block is a status after which
it goes on, and no behaviour of it is a stuck state (60_exceptions.md R181, 93_implementation_defined.md Part 1), so the
type has no member (log 8). Safe. -/
inductive Fault : Type
  deriving DecidableEq, Repr

/-- Why a step has no meaning (60_exceptions.md R190). -/
inductive Refusal where
  /-- Raised by an arm of `exec` for an operation without a meaning in the model. None is left. Safe. -/
  | notModelled (mnemonic : String)
  /-- Raised by `step` for a command whose `op` is outside the table (30_encoding.md R80). Safe. -/
  | unknownOperation (op : Byte)
  /-- Raised by MemRead and MemWrite, in PACK, BYTES, GET_BYTE, GET_DATA and CONSTRUCT, for a cell index at or above
  CAPACITY; only while `length > CAPACITY` (20_memory.md R51, 60_exceptions.md R190). Safe. -/
  | dataIndexOutOfRange
  deriving DecidableEq, Repr

/-- What an operation answers. -/
abbrev Answer := Host.Outcome State Fault Refusal

/-- The state after power-on of an instance of the given capacity (10_state.md R35, 70_reset_and_hazards.md R200). -/
def State.powerOn (cap : Capacity) : State :=
  { capacity := cap
    header := 0x0000#16
    checksum := 0x0000#16
    request := 0x0000#16
    response := 0x0000#16
    length := 0x0000#16
    data := []
    internalCounter := 0
    dataLengthCounter := 0x0000#16
    status := .ok
    commands := []
    result := none
    draws := 0 }

/-- The machine right after reset: a power-on state, of the capacity that log 4 names. -/
def State.reset : State := State.powerOn Config.resetCapacity

end Sys2Proof.Machine
end

