-- ==== Sys2Proof/Machine/Ops.lean ====
section
/-! DEFINITION. The named operations over the payload buffer, the result output and the driver's commands, and the one
shared operation by which an error is taken (60_exceptions.md R181). -/

namespace Sys2Proof.Machine

/-- What a cell that is not listed holds: the power-on content (10_state.md R35). -/
def absentByte : Byte := 0x00#8

/-- The byte held under an index. -/
def Memory.read : Memory → Nat → Byte
  | [], _ => absentByte
  | (k, b) :: m, a => if k = a then b else Memory.read m a

/-- The list with the byte under an index replaced; it keeps the canonical form. -/
def Memory.write : Memory → Nat → Byte → Memory
  | [], a, v => if v = absentByte then [] else [(a, v)]
  | (k, b) :: m, a, v =>
    if a < k then
      if v = absentByte then (k, b) :: m else (a, v) :: (k, b) :: m
    else if a = k then
      if v = absentByte then m else (a, v) :: m
    else (k, b) :: Memory.write m a v

/-- Canonical from an index on: indices at least `lo` and strictly rising, no byte equal to `absentByte`. -/
def Memory.wfFrom : Nat → Memory → Bool
  | _, [] => true
  | lo, (k, b) :: m => decide (lo ≤ k) && decide (b ≠ absentByte) && Memory.wfFrom (k + 1) m

/-- The canonical form: equal buffers are equal lists. -/
def Memory.wf (m : Memory) : Bool := Memory.wfFrom 0 m

/-- Every listed cell exists: its index is below the capacity (20_memory.md R50). -/
def Memory.within (m : Memory) (n : Nat) : Bool := m.all fun c => decide (c.1 < n)

/-- `data <- m`. -/
def State.withData (s : State) (m : Memory) : State := { s with data := m }

/-- `MemRead(a, 1)`; `none` is the refusal DataIndexOutOfRange (20_memory.md R51). -/
def memRead (s : State) (a : Nat) : Option Byte :=
  if a < s.capacity.val then some (Memory.read s.data a) else none

/-- `MemWrite(a, 1, v)`; `none` is the refusal DataIndexOutOfRange (20_memory.md R51). -/
def memWrite (s : State) (a : Nat) (v : Byte) : Option State :=
  if a < s.capacity.val then some (s.withData (Memory.write s.data a v)) else none

/-- The `n` cells from index `a` on, ascending (20_memory.md R56). -/
def readCells (s : State) : Nat → Nat → Option (List Byte)
  | _, 0 => some []
  | a, n + 1 =>
    match memRead s a with
    | none => none
    | some b => (readCells s (a + 1) n).map (b :: ·)

/-- The bytes of `q` written from index `a` on, ascending (20_memory.md R56). -/
def writeCells : State → Nat → List Byte → Option State
  | s, _, [] => some s
  | s, a, v :: q =>
    match memWrite s a v with
    | none => none
    | some s' => writeCells s' (a + 1) q

/-- The result output takes the record `(st, v, r)` (30_encoding.md R81). -/
def State.answer (s : State) (st : Status) (v : Halfword) (r : Option (List Byte)) : State :=
  { s with result := some ⟨st, v, r⟩ }

/-- The status register takes a value. -/
def State.withStatus (s : State) (st : Status) : State := { s with status := st }

/-- `return Ok(v)` of an operation that leaves the status register alone (30_encoding.md R82). -/
def returnOk (v : Halfword) (s : State) : Answer := .next (s.answer .ok v none)

/-- `return <Status>(v)` of an operation that writes the status register: the result status equals the value written
(30_encoding.md R82). -/
def returnStatus (st : Status) (v : Halfword) (s : State) : Answer := .next ((s.withStatus st).answer st v none)

/-- Taking an error, `raise <Status>`: the status register takes it, the operation returns it, and the operation ends.
No handler, no saved counter, no mode change (60_exceptions.md R181). -/
def raise (st : Status) (s : State) : Answer := returnStatus st 0x0000#16 s

/-- An access outside the buffer has no meaning: the whole operation is refused (60_exceptions.md R190). -/
def refuseIndex : Answer := .refused .dataIndexOutOfRange

/-- Go on with a value the buffer gave, or refuse. -/
def orRefuse {α : Type} (x : Option α) (f : α → Answer) : Answer :=
  match x with
  | none => refuseIndex
  | some y => f y

/-- One operation after another, inside one atomic transition. -/
def andThen (o : Answer) (f : State → Answer) : Answer :=
  match o with
  | .next s => f s
  | .fault e => .fault e
  | .refused r => .refused r

/-- What both resets clear: the five framing registers and the two counters, and status Ok (43_reset_access.md R151). -/
def State.clearFraming (s : State) : State :=
  { s with
    header := 0x0000#16
    checksum := 0x0000#16
    request := 0x0000#16
    response := 0x0000#16
    length := 0x0000#16
    internalCounter := 0
    dataLengthCounter := 0x0000#16
    status := .ok }

/-- Every cell takes 0x00 (43_reset_access.md R150). -/
def State.clearData (s : State) : State := s.withData []

/-- A free value is drawn: the count of draws moves on (43_reset_access.md R157, log 3). -/
def State.drawn (s : State) : State := { s with draws := s.draws + 1 }

/-- The driver issues commands, after those it has issued before (00_scope.md R8, log 1). -/
def State.issue (s : State) (cs : List Command) : State := { s with commands := s.commands ++ cs }

/-- The state an answer goes on in, if it does. -/
def nextState? (o : Answer) : Option State :=
  match o with
  | .next s => some s
  | .fault _ => none
  | .refused _ => none

/-- The refusal an answer is, if it is one. -/
def refusal? (o : Answer) : Option Refusal :=
  match o with
  | .next _ => none
  | .fault _ => none
  | .refused r => some r

end Sys2Proof.Machine
end

