-- ==== Sys2Proof/Machine/Operands.lean ====
section
/-! DEFINITION. The frame as the registers and the buffer spell it (20_memory.md R52, 30_encoding.md R70 to R72), and the
writes of a register and of one byte lane of a register (20_memory.md R54). -/

namespace Sys2Proof.Machine

/-- The ten framing bytes, in field-declaration order, each field low byte first (30_encoding.md R71). -/
def framingBytes (s : State) : List Byte :=
  [lo8 s.header, hi8 s.header, lo8 s.checksum, hi8 s.checksum, lo8 s.request, hi8 s.request, lo8 s.response,
    hi8 s.response, lo8 s.length, hi8 s.length]

/-- The valid payload, `data[0 .. length-1]`. -/
def payload (s : State) : Option (List Byte) := readCells s 0 s.length.toNat

/-- `Image(s)`, the serialised frame; refused where it takes in a cell that does not exist (30_encoding.md R71). -/
def image (s : State) : Option (List Byte) := (payload s).map (framingBytes s ++ ·)

/-- `Image(s)[p]` for one position: a framing byte below 10, else the cell `p - 10`. Only the indexed element is read
(41_outbound.md R118, 95_test_vectors.md V81). -/
def imageByte (s : State) (p : Nat) : Option Byte :=
  if p < Config.headerSize then (framingBytes s)[p]? else memRead s (p - Config.headerSize)

/-- `request <- v`. -/
def State.withRequest (s : State) (v : Halfword) : State := { s with request := v }

/-- `response <- v`. -/
def State.withResponse (s : State) (v : Halfword) : State := { s with response := v }

/-- `length <- v`. -/
def State.withLength (s : State) (v : Halfword) : State := { s with length := v }

/-- `header <- v`. -/
def State.withHeader (s : State) (v : Halfword) : State := { s with header := v }

/-- `checksum <- v`. -/
def State.withChecksum (s : State) (v : Halfword) : State := { s with checksum := v }

/-- `internal_counter <- n`. -/
def State.withCounter (s : State) (n : Nat) : State := { s with internalCounter := n }

/-- `data_length_counter <- n`. -/
def State.withDataCounter (s : State) (n : Halfword) : State := { s with dataLengthCounter := n }

end Sys2Proof.Machine
end

