-- ==== Sys2Proof/Machine/Inbound.lean ====
section
/-! DEFINITION. The inbound path: CONSTRUCT, the packet state machine (42_inbound.md). `s.internalCounter` is the
position of the byte in the frame. -/

namespace Sys2Proof.Machine

/-- The steady state: the counter moves on by one and the result is PacketBuilding (42_inbound.md R140). -/
def advance (s : State) : Answer :=
  returnStatus .packetBuilding 0x0000#16 (s.withCounter (s.internalCounter + 1))

/-- The frame is complete: the checksum is validated in the state that holds the byte just consumed, the counter does
not move (40_checksum.md R106, 42_inbound.md R137, R138). -/
def completeFrame (s : State) : Answer := orRefuse (validate s) fun st => raise st s

/-- Losing the header: back to position 0, nothing else changes (42_inbound.md R131, R132). -/
def resynchronise (s : State) : Answer := raise .headerBytesNotFound (s.withCounter 0)

/-- Position 0 (42_inbound.md R131). -/
def constructHeaderLow (b : Byte) (s : State) : Answer :=
  if b ≠ Config.magicByte then resynchronise s else advance (s.withHeader (withLo8 s.header b))

/-- Position 1 (42_inbound.md R132). -/
def constructHeaderHigh (b : Byte) (s : State) : Answer :=
  if b ≠ Config.magicByte then resynchronise s else advance (s.withHeader (withHi8 s.header b))

/-- Position 2 (42_inbound.md R133). -/
def constructChecksumLow (b : Byte) (s : State) : Answer := advance (s.withChecksum (withLo8 s.checksum b))

/-- Position 3 (42_inbound.md R133). -/
def constructChecksumHigh (b : Byte) (s : State) : Answer := advance (s.withChecksum (withHi8 s.checksum b))

/-- Position 4 (42_inbound.md R134). -/
def constructRequestLow (b : Byte) (s : State) : Answer := advance (s.withRequest (withLo8 s.request b))

/-- Position 5 (42_inbound.md R134). -/
def constructRequestHigh (b : Byte) (s : State) : Answer := advance (s.withRequest (withHi8 s.request b))

/-- Position 6 (42_inbound.md R135). -/
def constructResponseLow (b : Byte) (s : State) : Answer := advance (s.withResponse (withLo8 s.response b))

/-- Position 7 (42_inbound.md R135). -/
def constructResponseHigh (b : Byte) (s : State) : Answer := advance (s.withResponse (withHi8 s.response b))

/-- Position 8 (42_inbound.md R136): no test is made on the half-assembled length. -/
def constructLengthLow (b : Byte) (s : State) : Answer := advance (s.withLength (withLo8 s.length b))

/-- What position 9 does once the length is decoded: zero first, then the capacity (42_inbound.md R137,
60_exceptions.md R191). -/
def lengthDecoded (s : State) : Answer :=
  if s.length = 0x0000#16 then completeFrame s
  else if s.capacity.val < s.length.toNat then raise .invalidDataLengthDetected s
  else advance s

/-- Position 9 (42_inbound.md R137). -/
def constructLengthHigh (b : Byte) (s : State) : Answer := lengthDecoded (s.withLength (withHi8 s.length b))

/-- What a payload position does once the byte is stored: completion, or on to the next (42_inbound.md R138). -/
def payloadStored (s : State) : Answer :=
  if s.dataLengthCounter = s.length then completeFrame s else advance s

/-- Positions from 10 on (42_inbound.md R138, R139): a byte beyond the frame end is dropped; any other is stored at
`data_length_counter`. -/
def constructPayload (b : Byte) (s : State) : Answer :=
  if s.length.toNat ≤ s.dataLengthCounter.toNat ∨ s.length.toNat ≤ s.internalCounter - Config.headerSize then
    raise .packetOverflow s
  else
    orRefuse (memWrite s s.dataLengthCounter.toNat b) fun t =>
      payloadStored (t.withDataCounter (s.dataLengthCounter + 1#16))

/-- CONSTRUCT `b` (42_inbound.md R130): dispatch on the position alone. -/
def execConstruct (b : Byte) (s : State) : Answer :=
  match s.internalCounter with
  | 0 => constructHeaderLow b s
  | 1 => constructHeaderHigh b s
  | 2 => constructChecksumLow b s
  | 3 => constructChecksumHigh b s
  | 4 => constructRequestLow b s
  | 5 => constructRequestHigh b s
  | 6 => constructResponseLow b s
  | 7 => constructResponseHigh b s
  | 8 => constructLengthLow b s
  | 9 => constructLengthHigh b s
  | _ => constructPayload b s

end Sys2Proof.Machine
end

