-- ==== Sys2Proof/Machine/Outbound.lean ====
section
/-! DEFINITION. The outbound path: field writes, payload append, finalise, builders, serialisers (41_outbound.md). -/

namespace Sys2Proof.Machine

/-- The payload append (41_outbound.md R112). The sum is of natural numbers, never reduced to 16 bits; a failing append
changes nothing but the status. -/
def appendPayload (q : List Byte) (s : State) : Answer :=
  if s.capacity.val < q.length + s.length.toNat then raise .packetOverflow s
  else
    orRefuse (writeCells s s.length.toNat q) fun s' =>
      returnStatus .ok 0x0000#16 (s'.withLength (s.length + BitVec.ofNat 16 q.length))

/-- The field assembler: the checksum over the current frame, then the magic header (41_outbound.md R113). -/
def commitFrame (s : State) : Answer :=
  orRefuse (frameCrc s) fun crc => returnOk 0x0000#16 ((s.withChecksum crc).withHeader Config.magic)

/-- What the three builders compose: lazy reset, request and response, payload append, and the commit only if the append
succeeded (30_encoding.md R84, 41_outbound.md R115). -/
def buildFrame (a b : Halfword) (q : List Byte) (s : State) : Answer :=
  andThen (appendPayload q ((s.clearFraming.withRequest a).withResponse b)) fun t =>
    if t.status = .packetOverflow then .next t else commitFrame t

/-- SET_REQUEST `a` (41_outbound.md R110). -/
def execSetRequest (a : Halfword) (s : State) : Answer := returnOk 0x0000#16 (s.withRequest a)

/-- SET_RESPONSE `a` (41_outbound.md R111). -/
def execSetResponse (a : Halfword) (s : State) : Answer := returnOk 0x0000#16 (s.withResponse a)

/-- ADD_DATA `q` (41_outbound.md R112). -/
def execAddData (q : List Byte) (s : State) : Answer := appendPayload q s

/-- PACK (41_outbound.md R113). -/
def execPack (s : State) : Answer := commitFrame s

/-- PACK_DATA `a`, `q` (41_outbound.md R114): response code "success". -/
def execPackData (a : Halfword) (q : List Byte) (s : State) : Answer := buildFrame a Config.responseSuccess q s

/-- PACK_ERROR `a`, `b`, `q` (41_outbound.md R115). -/
def execPackError (a b : Halfword) (q : List Byte) (s : State) : Answer := buildFrame a b q s

/-- PACK_ID `q` (41_outbound.md R116): the identity request, response "success", `q` opaque. -/
def execPackId (q : List Byte) (s : State) : Answer :=
  buildFrame Config.requestIdentity Config.responseSuccess q s

/-- BYTES (41_outbound.md R117): the whole image; no state is written. -/
def execBytes (s : State) : Answer := orRefuse (image s) fun im => .next (s.answer .ok 0x0000#16 (some im))

/-- GET_BYTE (41_outbound.md R118): the image's byte at the cursor, or past the end GetByteFinished and cursor 0. -/
def execGetByte (s : State) : Answer :=
  if s.internalCounter < Config.headerSize + s.length.toNat then
    orRefuse (imageByte s s.internalCounter) fun b =>
      returnStatus .ok (zext16 b) (s.withCounter (s.internalCounter + 1))
  else returnStatus .getByteFinished 0x0000#16 (s.withCounter 0)

end Sys2Proof.Machine
end

