-- ==== Sys2Proof/Machine/Flags.lean ====
section
/-! DEFINITION. The codes and classes of the status register (10_state.md R30, 30_encoding.md R81). -/

namespace Sys2Proof.Machine

/-- The 4-bit status codes (30_encoding.md R81). -/
def statusCode : Status → BitVec 4
  | .ok => 0x0#4
  | .packetBuilding => 0x1#4
  | .packetReceived => 0x2#4
  | .getByteFinished => 0x3#4
  | .headerBytesNotFound => 0x4#4
  | .checksumError => 0x5#4
  | .packetOverflow => 0x6#4
  | .invalidDataLengthDetected => 0x7#4

/-- `zext_16(code(status))`, what GET_STATUS returns (43_reset_access.md R156). -/
def statusWord (st : Status) : Halfword := (statusCode st).setWidth 16

/-- The classes of outcomes (10_state.md R30). -/
inductive StatusClass where
  | inProgress
  | completed
  | error
  deriving DecidableEq, Repr

/-- The class of each status (10_state.md R30). -/
def statusClass : Status → StatusClass
  | .ok => .completed
  | .packetBuilding => .inProgress
  | .packetReceived => .completed
  | .getByteFinished => .completed
  | .headerBytesNotFound => .error
  | .checksumError => .error
  | .packetOverflow => .error
  | .invalidDataLengthDetected => .error

/-- The outcomes after which the caller must not go on feeding bytes without a reset (42_inbound.md R141). -/
def terminalOutcome : Status → Bool
  | .packetReceived => true
  | .checksumError => true
  | .packetOverflow => true
  | .invalidDataLengthDetected => true
  | .ok => false
  | .packetBuilding => false
  | .getByteFinished => false
  | .headerBytesNotFound => false

end Sys2Proof.Machine
end

