-- ==== Sys2Proof/Machine/ResetAccess.lean ====
section
/-! DEFINITION. The two resets and the field accessors (43_reset_access.md). -/

namespace Sys2Proof.Machine

/-- RESET (43_reset_access.md R150). -/
def execReset (s : State) : Answer := returnStatus .ok 0x0000#16 s.clearFraming.clearData

/-- RESET_LAZY (43_reset_access.md R151): the payload cells keep their values. -/
def execResetLazy (s : State) : Answer := returnStatus .ok 0x0000#16 s.clearFraming

/-- GET_REQUEST (43_reset_access.md R152). -/
def execGetRequest (s : State) : Answer := returnOk s.request s

/-- GET_RESPONSE (43_reset_access.md R153). -/
def execGetResponse (s : State) : Answer := returnOk s.response s

/-- GET_LENGTH (43_reset_access.md R154). -/
def execGetLength (s : State) : Answer := returnOk s.length s

/-- GET_CHECKSUM (43_reset_access.md R155). -/
def execGetChecksum (s : State) : Answer := returnOk s.checksum s

/-- GET_STATUS (43_reset_access.md R156): reading the status does not change it. -/
def execGetStatus (s : State) : Answer := returnOk (statusWord s.status) s

/-- GET_DATA `a` (43_reset_access.md R157): a valid payload byte, or for an index at or above `length` an unspecified
byte, a free draw per call (log 3). -/
def execGetData (a : Halfword) (s : State) : Answer :=
  if a.toNat < s.length.toNat then
    orRefuse (memRead s a.toNat) fun b => returnOk (zext16 b) s
  else returnOk (zext16 (Config.unspecifiedByte s.draws)) s.drawn

end Sys2Proof.Machine
end

