-- ==== Sys2Proof/Machine/Dispatch.lean ====
section
/-! DEFINITION. One arm per operation: the meaning `exec` gives it. -/

namespace Sys2Proof.Machine

def exec (i : Instr) (s : State) : Host.Outcome State Fault Refusal :=
  match i with
  | .reset => Sys2Proof.Machine.execReset s
  | .resetLazy => Sys2Proof.Machine.execResetLazy s
  | .crc16 q => Sys2Proof.Machine.execCrc16 q s
  | .setRequest a => Sys2Proof.Machine.execSetRequest a s
  | .setResponse a => Sys2Proof.Machine.execSetResponse a s
  | .addData q => Sys2Proof.Machine.execAddData q s
  | .pack => Sys2Proof.Machine.execPack s
  | .packData a q => Sys2Proof.Machine.execPackData a q s
  | .packError a b q => Sys2Proof.Machine.execPackError a b q s
  | .packId q => Sys2Proof.Machine.execPackId q s
  | .bytes => Sys2Proof.Machine.execBytes s
  | .getByte => Sys2Proof.Machine.execGetByte s
  | .construct b => Sys2Proof.Machine.execConstruct b s
  | .getRequest => Sys2Proof.Machine.execGetRequest s
  | .getResponse => Sys2Proof.Machine.execGetResponse s
  | .getLength => Sys2Proof.Machine.execGetLength s
  | .getChecksum => Sys2Proof.Machine.execGetChecksum s
  | .getStatus => Sys2Proof.Machine.execGetStatus s
  | .getData a => Sys2Proof.Machine.execGetData a s

end Sys2Proof.Machine
end

