-- ==== Sys2Proof/Machine/Step.lean ====
section
/-! DEFINITION. One step: the block accepts the oldest command of its driver and runs it as one atomic transition
(00_scope.md R8). -/

namespace Sys2Proof.Machine

/-- One step. With no command issued the block is idle and stays as it is (00_scope.md R8, 70_reset_and_hazards.md R212,
log 1); an undefined operation code is refused by name (30_encoding.md R80). -/
def step (s : State) : Host.Outcome State Fault Refusal :=
  match s.commands with
  | [] => .next s
  | c :: rest =>
    match decode c with
    | .unknownOperation op => .refused (.unknownOperation op)
    | .instr i => exec i { s with commands := rest }

/-- `s` with the command of a table word at the head of the driver's commands, so that the next step accepts it. It
stands for the driver's issuing a command, which is how a program comes to run (log 1). -/
def State.withFetchWord (s : State) (nbits w : Nat) : State :=
  { s with commands := Command.ofWord nbits w :: s.commands }

end Sys2Proof.Machine
end

