-- ==== Sys2Proof/Machine/Descriptor.lean ====
section
/-! DEFINITION. The Capability Descriptor at interface level (44_capability_descriptor.md): pure functions of the external
collaborator, no state and no behaviour of the block. The block sees only the byte sequence that PACK_ID carries (R175). -/

namespace Sys2Proof.Machine

/-- The width of the name field (44_capability_descriptor.md R170). -/
def descriptorNameWidth : Nat := 25

/-- The packed size (44_capability_descriptor.md R171). -/
def descriptorSize : Nat := 30

/-- The record (44_capability_descriptor.md R170). -/
structure Descriptor where
  major : Byte
  minor : Byte
  patch : Byte
  maxPacketSize : Halfword
  name : List Byte
  deriving DecidableEq, Repr

/-- The name field has its fixed width. -/
def Descriptor.wf (d : Descriptor) : Bool := d.name.length == descriptorNameWidth

/-- Construction from fields: a name longer than the field is rejected, a shorter one padded with 0x00
(44_capability_descriptor.md R172). -/
def Descriptor.make? (major minor patch : Byte) (maxPacketSize : Halfword) (name : List Byte) : Option Descriptor :=
  if name.length ≤ descriptorNameWidth then
    some ⟨major, minor, patch, maxPacketSize, name ++ List.replicate (descriptorNameWidth - name.length) 0x00#8⟩
  else none

/-- The packed binary layout (44_capability_descriptor.md R171). -/
def Descriptor.toPacked (d : Descriptor) : List Byte :=
  [d.major, d.minor, d.patch] ++ leBytes d.maxPacketSize ++ d.name

/-- The textual form: the open parameter of the collaborator (44_capability_descriptor.md R174). -/
def Descriptor.toText (d : Descriptor) : List Byte :=
  Config.descriptorTextEncoding d.major d.minor d.patch d.maxPacketSize d.name

/-- Parse from bytes: always succeeds on 30 bytes or more (44_capability_descriptor.md R173); a shorter input has no
stated outcome and no answer here (log 10). -/
def Descriptor.ofPacked? (bs : List Byte) : Option Descriptor :=
  if descriptorSize ≤ bs.length then
    some ⟨bs.getD 0 0, bs.getD 1 0, bs.getD 2 0, halfword (bs.getD 4 0) (bs.getD 3 0),
      (bs.drop 5).take descriptorNameWidth⟩
  else none

end Sys2Proof.Machine
end

