-- ==== Sys2Proof/Machine/Script.lean ====
section
/-! DEFINITION. Sequences of operations and the pseudo-operations FEED and DRAIN (30_encoding.md R84). -/

namespace Sys2Proof.Machine

/-- The result an operation has just left on the result output. -/
def State.results (s : State) : List Result := s.result.toList

/-- The operations of a script in order, with the list of their results; it ends at the first that does not go on. -/
def runOps : List Instr → State → List Result × Answer
  | [], s => ([], .next s)
  | i :: is, s =>
    match exec i s with
    | .next t => (t.results ++ (runOps is t).1, (runOps is t).2)
    | .fault e => ([], .fault e)
    | .refused r => ([], .refused r)

/-- FEED `bs`: one CONSTRUCT a byte, with the list of result statuses (30_encoding.md R84). -/
def feed (bs : List Byte) (s : State) : List Status × Answer :=
  ((runOps (bs.map .construct) s).1.map (·.st), (runOps (bs.map .construct) s).2)

/-- The byte GET_BYTE has just returned: the low lane of the result's value. -/
def State.byteOut (s : State) : Byte :=
  match s.result with
  | none => 0x00#8
  | some x => lo8 x.v

/-- DRAIN, within `n` calls: GET_BYTE until it returns GetByteFinished, with the list of bytes returned before that
(30_encoding.md R84). -/
def drain : Nat → State → List Byte × Answer
  | 0, s => ([], .next s)
  | n + 1, s =>
    match exec .getByte s with
    | .next t =>
      if t.status = .getByteFinished then ([], .next t) else (t.byteOut :: (drain n t).1, (drain n t).2)
    | .fault e => ([], .fault e)
    | .refused r => ([], .refused r)

end Sys2Proof.Machine
end

