-- ==== Sys2Proof/Safety.lean ====
section
/-! DEFINITION. What a safe state and a safe run are: the invariants of 10_state.md R31 and the usage contract of
70_reset_and_hazards.md R203 to R210. The block enforces none of the contract (log 14). -/

namespace Sys2Proof.Machine

/-- INV1: `length <= CAPACITY` (10_state.md R31). -/
def State.lengthFits (s : State) : Prop := s.length.toNat ≤ s.capacity.val

/-- INV2: `data_length_counter <= length` (10_state.md R31). -/
def State.counterWithinLength (s : State) : Prop := s.dataLengthCounter.toNat ≤ s.length.toNat

/-- A byte lane of `header` holds 0x00 or 0x55, the only values anything writes there (10_state.md R21). -/
def headerLaneOk (b : Byte) : Prop := b = 0x00#8 ∨ b = Config.magicByte

/-- Both lanes of `header` hold 0x00 or 0x55 (10_state.md R21). -/
def State.headerOk (s : State) : Prop := headerLaneOk (lo8 s.header) ∧ headerLaneOk (hi8 s.header)

/-- The shape of every state a step can reach from such a state, within the usage contract or not: the buffer is canonical
and holds no cell outside `0 .. CAPACITY-1` (20_memory.md R50), the counter is at most `10 + length`, so that it fits its
17-bit register (10_state.md R27), and `header` holds only what is ever written to it (R21). -/
def State.shapeOk (s : State) : Prop :=
  Memory.wf s.data = true ∧ Memory.within s.data s.capacity.val = true ∧
    s.internalCounter ≤ Config.headerSize + s.length.toNat ∧ s.headerOk

/-- The registers and counters are as a reset leaves them (10_state.md R35); the cells may hold anything. -/
def State.registersReset (s : State) : Prop :=
  s.header = 0x0000#16 ∧ s.checksum = 0x0000#16 ∧ s.request = 0x0000#16 ∧ s.response = 0x0000#16 ∧
    s.length = 0x0000#16 ∧ s.internalCounter = 0 ∧ s.dataLengthCounter = 0x0000#16 ∧ s.status = .ok

/-- The packet is finalised: magic header, and the checksum of the frame as it stands (41_outbound.md R113). -/
def State.finalised (s : State) : Prop := s.header = Config.magic ∧ frameCrc s = some s.checksum

/-- The direction one instance is dedicated to (70_reset_and_hazards.md R202, R205). -/
inductive Role where
  | receiver
  | transmitter
  deriving DecidableEq, Repr

/-- The operations the usage contract lets the driver issue in a state. Either reset at any time (R201). CONSTRUCT on a
receiver only, and not after a terminal outcome without a reset (R204, R205). Field writes, appends and commits on a
transmitter only, at the start of the frame, so that an emission starts at the cursor 0 and sends one frame (R205, R206,
R208). Serialising a packet only once it is finalised (R203, R208). Reading the image or the payload of a receiver while
the length is not a rejected or half-assembled one (10_state.md R31). The other accessors and CRC16 always (R205). -/
def contractAllows : Role → State → Instr → Prop
  | _, _, .reset => True
  | _, _, .resetLazy => True
  | _, _, .crc16 _ => True
  | .receiver, _, .setRequest _ => False
  | .transmitter, s, .setRequest _ => s.internalCounter = 0
  | .receiver, _, .setResponse _ => False
  | .transmitter, s, .setResponse _ => s.internalCounter = 0
  | .receiver, _, .addData _ => False
  | .transmitter, s, .addData _ => s.internalCounter = 0
  | .receiver, _, .pack => False
  | .transmitter, s, .pack => s.internalCounter = 0
  | .receiver, _, .packData _ _ => False
  | .transmitter, _, .packData _ _ => True
  | .receiver, _, .packError _ _ _ => False
  | .transmitter, _, .packError _ _ _ => True
  | .receiver, _, .packId _ => False
  | .transmitter, _, .packId _ => True
  | .receiver, s, .bytes => s.lengthFits
  | .transmitter, s, .bytes => s.finalised
  | .receiver, _, .getByte => False
  | .transmitter, s, .getByte => s.finalised
  | .receiver, s, .construct _ => terminalOutcome s.status = false
  | .transmitter, _, .construct _ => False
  | _, _, .getRequest => True
  | _, _, .getResponse => True
  | _, _, .getLength => True
  | _, _, .getChecksum => True
  | _, _, .getStatus => True
  | _, s, .getData _ => s.lengthFits

/-- What holds of a receiver in a run that keeps the contract: before the length is complete no payload has been taken;
from position 10 on the length is one the buffer holds, and unless the frame has ended the counters agree (INV1, INV2 and
INV5 of 10_state.md R31). -/
def State.receiverOk (s : State) : Prop :=
  (s.internalCounter ≤ 8 ∧ s.length = 0x0000#16 ∧ s.dataLengthCounter = 0x0000#16) ∨
  (s.internalCounter = 9 ∧ s.dataLengthCounter = 0x0000#16) ∨
  (10 ≤ s.internalCounter ∧ s.lengthFits ∧ s.counterWithinLength ∧ s.internalCounter < 10 + s.length.toNat ∧
    (terminalOutcome s.status = false → s.dataLengthCounter.toNat = s.internalCounter - 10))

/-- What holds of a transmitter in a run that keeps the contract: INV1 and INV4 of 10_state.md R31, no payload taken by
CONSTRUCT, and a frame under emission is a finalised one (70_reset_and_hazards.md R206, R208). -/
def State.transmitterOk (s : State) : Prop :=
  s.lengthFits ∧ s.dataLengthCounter = 0x0000#16 ∧ s.internalCounter ≤ 10 + s.length.toNat ∧
    (s.internalCounter ≠ 0 → s.finalised)

/-- The invariant of a run that keeps the contract, by the instance's direction. -/
def State.contractOk (s : State) : Role → Prop
  | .receiver => s.receiverOk
  | .transmitter => s.transmitterOk

/-- How many cells from index 0 on the instance has written since its reset: a transmitter's whole payload, and as much
of a receiver's as CONSTRUCT has stored. -/
def State.written (s : State) : Role → Nat
  | .receiver => s.dataLengthCounter.toNat
  | .transmitter => s.length.toNat

/-- The operation reads no cell that has not been written since the reset: the payload is complete wherever it is read,
and GET_DATA stays below `length`. This is stronger than the one exclusion of 43_reset_access.md R158, which is not enough
(log 15). -/
def readsWrittenOnly (role : Role) (s : State) : Instr → Prop
  | .bytes => s.length.toNat ≤ s.written role
  | .getData a => a.toNat < s.length.toNat ∧ s.length.toNat ≤ s.written role
  | _ => True

/-- A script that keeps the usage contract and reads only written cells, from a state on. -/
def scriptKeepsContract (role : Role) : List Instr → State → Prop
  | [], _ => True
  | i :: is, s =>
    contractAllows role s i ∧ readsWrittenOnly role s i ∧
      ∀ t, exec i s = .next t → scriptKeepsContract role is t

/-! ### Which cells an operation reads and writes (20_memory.md R56) -/

/-- The operation reads this cell, as it stood before the operation, and goes on. A builder and a completing CONSTRUCT read
besides these only cells that they have just written themselves. An operation that is refused (20_memory.md R51) returns
nothing of what it read, so it counts as reading nothing. -/
def readsCell : Instr → State → Nat → Prop
  | .pack, s, a => s.lengthFits ∧ a < s.length.toNat
  | .bytes, s, a => s.lengthFits ∧ a < s.length.toNat
  | .getByte, s, a => 10 ≤ s.internalCounter ∧ s.internalCounter < 10 + s.length.toNat ∧ a = s.internalCounter - 10
  | .construct _, s, a =>
    10 ≤ s.internalCounter ∧ s.internalCounter - 10 < s.length.toNat ∧
      s.dataLengthCounter.toNat + 1 = s.length.toNat ∧ a < s.dataLengthCounter.toNat
  | .getData k, s, a => k.toNat < s.length.toNat ∧ a = k.toNat
  | .reset, _, _ => False
  | .resetLazy, _, _ => False
  | .crc16 _, _, _ => False
  | .setRequest _, _, _ => False
  | .setResponse _, _, _ => False
  | .addData _, _, _ => False
  | .packData _ _, _, _ => False
  | .packError _ _ _, _, _ => False
  | .packId _, _, _ => False
  | .getRequest, _, _ => False
  | .getResponse, _, _ => False
  | .getLength, _, _ => False
  | .getChecksum, _, _ => False
  | .getStatus, _, _ => False

/-- The operation writes this cell: an append that fits, from `length` on; a builder, whose lazy reset has made `length`
0, from cell 0 on; CONSTRUCT from position 10 on, the cell `data_length_counter`; RESET, every cell. -/
def writesCell : Instr → State → Nat → Prop
  | .reset, _, _ => True
  | .addData q, s, a =>
    q.length + s.length.toNat ≤ s.capacity.val ∧ s.length.toNat ≤ a ∧ a < s.length.toNat + q.length
  | .packData _ q, s, a => q.length ≤ s.capacity.val ∧ a < q.length
  | .packError _ _ q, s, a => q.length ≤ s.capacity.val ∧ a < q.length
  | .packId q, s, a => q.length ≤ s.capacity.val ∧ a < q.length
  | .construct _, s, a =>
    10 ≤ s.internalCounter ∧ s.internalCounter - 10 < s.length.toNat ∧
      s.dataLengthCounter.toNat < s.length.toNat ∧ a = s.dataLengthCounter.toNat
  | .resetLazy, _, _ => False
  | .crc16 _, _, _ => False
  | .setRequest _, _, _ => False
  | .setResponse _, _, _ => False
  | .pack, _, _ => False
  | .bytes, _, _ => False
  | .getByte, _, _ => False
  | .getRequest, _, _ => False
  | .getResponse, _, _ => False
  | .getLength, _, _ => False
  | .getChecksum, _, _ => False
  | .getStatus, _, _ => False
  | .getData _, _, _ => False

/-- The one exclusion of 43_reset_access.md R158: no GET_DATA with an index at or above `length` at the time of the
call. -/
def drawsNothing : Instr → State → Prop
  | .getData k, s => k.toNat < s.length.toNat
  | _, _ => True

/-- A script that keeps to that exclusion, from a state on. -/
def scriptDrawsNothing : List Instr → State → Prop
  | [], _ => True
  | i :: is, s => drawsNothing i s ∧ ∀ t, exec i s = .next t → scriptDrawsNothing is t

/-- Of the cells that exist, the operation reads only known ones. Those below `data_length_counter` need not be named:
CONSTRUCT has stored them since the reset that cleared the counter (10_state.md R28), so a CONSTRUCT, which reads no
others, meets this in every script. -/
def readsKnown (known : Nat → Prop) (i : Instr) (s : State) : Prop :=
  ∀ a, a < s.capacity.val → readsCell i s a → known a ∨ a < s.dataLengthCounter.toNat

/-- At every operation of the script a condition holds of the cells known by then, those given and those the script has
written, of the operation and of its state. -/
def scriptKeeps (ok : (Nat → Prop) → Instr → State → Prop) : List Instr → (Nat → Prop) → State → Prop
  | [], _, _ => True
  | i :: is, known, s =>
    ok known i s ∧ ∀ t, exec i s = .next t → scriptKeeps ok is (fun a => known a ∨ writesCell i s a) t

/-- A script that keeps to the exclusion of R158 and whose operations read only cells in `known` or written before by the
script. No direction and no usage contract is assumed. -/
def scriptReadsWritten : List Instr → (Nat → Prop) → State → Prop :=
  scriptKeeps fun known i s => drawsNothing i s ∧ readsKnown known i s

/-- A script whose PACK operations read only such cells. Its other operations may read anything. -/
def scriptPacksWritten : List Instr → (Nat → Prop) → State → Prop :=
  scriptKeeps fun known i s => i = .pack → readsKnown known i s

/-- The script, run from a state, writes this cell. -/
def cellsWritten : List Instr → State → Nat → Prop
  | [], _, _ => False
  | i :: is, s, a => writesCell i s a ∨ ∃ t, exec i s = .next t ∧ cellsWritten is t a

/-- Two states agree on every register and on the given cells (43_reset_access.md R158). -/
def State.agreesOn (s t : State) (known : Nat → Prop) : Prop :=
  s.capacity = t.capacity ∧ s.header = t.header ∧ s.checksum = t.checksum ∧ s.request = t.request ∧
    s.response = t.response ∧ s.length = t.length ∧ s.internalCounter = t.internalCounter ∧
    s.dataLengthCounter = t.dataLengthCounter ∧ s.status = t.status ∧ ∀ a, known a → memRead s a = memRead t a

/-- A status up to whether a completed frame's checksum matched (40_checksum.md R106): the two outcomes of the validation
count as one. -/
def Status.upToValidation : Status → Status
  | .checksumError => .packetReceived
  | .packetReceived => .packetReceived
  | .ok => .ok
  | .packetBuilding => .packetBuilding
  | .getByteFinished => .getByteFinished
  | .headerBytesNotFound => .headerBytesNotFound
  | .packetOverflow => .packetOverflow
  | .invalidDataLengthDetected => .invalidDataLengthDetected

/-- Two states agree on the given cells and on every register but `checksum`, and on `status` up to what validating
`checksum` decides. -/
def State.agreesUpToChecksum (s t : State) (known : Nat → Prop) : Prop :=
  s.capacity = t.capacity ∧ s.header = t.header ∧ s.request = t.request ∧ s.response = t.response ∧
    s.length = t.length ∧ s.internalCounter = t.internalCounter ∧ s.dataLengthCounter = t.dataLengthCounter ∧
    s.status.upToValidation = t.status.upToValidation ∧ ∀ a, known a → memRead s a = memRead t a

/-- Two states agree on every register and on the cells that an instance kept to one direction has written since the reset
(log 15). -/
def State.agreesWith (s t : State) (role : Role) : Prop := s.agreesOn t fun a => a < s.written role

/-- The registers and the buffer by name, for the rules that say what writes each (10_state.md R21 to R29). -/
inductive Register where
  | header
  | checksum
  | request
  | response
  | length
  | data
  | internalCounter
  | dataLengthCounter
  | status
  deriving DecidableEq, Repr

/-- The named register, or every readable cell of the buffer, is the same in two states. -/
def State.sameIn (s t : State) : Register → Prop
  | .header => t.header = s.header
  | .checksum => t.checksum = s.checksum
  | .request => t.request = s.request
  | .response => t.response = s.response
  | .length => t.length = s.length
  | .data => ∀ a, memRead t a = memRead s a
  | .internalCounter => t.internalCounter = s.internalCounter
  | .dataLengthCounter => t.dataLengthCounter = s.dataLengthCounter
  | .status => t.status = s.status

/-- The registers CONSTRUCT may write at a position (42_inbound.md R142). -/
def constructWrites (p : Nat) : List Register :=
  match p with
  | 0 => [.header, .internalCounter, .status]
  | 1 => [.header, .internalCounter, .status]
  | 2 => [.checksum, .internalCounter, .status]
  | 3 => [.checksum, .internalCounter, .status]
  | 4 => [.request, .internalCounter, .status]
  | 5 => [.request, .internalCounter, .status]
  | 6 => [.response, .internalCounter, .status]
  | 7 => [.response, .internalCounter, .status]
  | 8 => [.length, .internalCounter, .status]
  | 9 => [.length, .internalCounter, .status]
  | _ => [.data, .internalCounter, .dataLengthCounter, .status]

/-- The registers an operation may write, from the "Written by" lists of 10_state.md R21 to R29. -/
def writes (i : Instr) (s : State) : List Register :=
  match i with
  | .reset => [.header, .checksum, .request, .response, .length, .data, .internalCounter, .dataLengthCounter, .status]
  | .resetLazy => [.header, .checksum, .request, .response, .length, .internalCounter, .dataLengthCounter, .status]
  | .crc16 _ => []
  | .setRequest _ => [.request]
  | .setResponse _ => [.response]
  | .addData _ => [.length, .data, .status]
  | .pack => [.checksum, .header]
  | .packData _ _ =>
    [.header, .checksum, .request, .response, .length, .data, .internalCounter, .dataLengthCounter, .status]
  | .packError _ _ _ =>
    [.header, .checksum, .request, .response, .length, .data, .internalCounter, .dataLengthCounter, .status]
  | .packId _ =>
    [.header, .checksum, .request, .response, .length, .data, .internalCounter, .dataLengthCounter, .status]
  | .bytes => []
  | .getByte => [.internalCounter, .status]
  | .construct _ => constructWrites s.internalCounter
  | .getRequest => []
  | .getResponse => []
  | .getLength => []
  | .getChecksum => []
  | .getStatus => []
  | .getData _ => []

/-- The values an operation can write to `status`; none where it never writes it (10_state.md R29). -/
def statusValues : Instr → List Status
  | .construct _ =>
    [.packetBuilding, .packetReceived, .headerBytesNotFound, .checksumError, .packetOverflow, .invalidDataLengthDetected]
  | .addData _ => [.ok, .packetOverflow]
  | .getByte => [.ok, .getByteFinished]
  | .packData _ _ => [.ok, .packetOverflow]
  | .packError _ _ _ => [.ok, .packetOverflow]
  | .packId _ => [.ok, .packetOverflow]
  | .reset => [.ok]
  | .resetLazy => [.ok]
  | .crc16 _ => []
  | .setRequest _ => []
  | .setResponse _ => []
  | .pack => []
  | .bytes => []
  | .getRequest => []
  | .getResponse => []
  | .getLength => []
  | .getChecksum => []
  | .getStatus => []
  | .getData _ => []

/-- The result output of an operation that returns a status and a value and no byte sequence. -/
def resultOf (st : Status) (v : Halfword) : Option Result := some ⟨st, v, none⟩

/-- The valid payload of a state whose length fits: `data[0] .. data[length-1]`. -/
def State.validBytes (s : State) : List Byte := (List.range s.length.toNat).map (Memory.read s.data)

/-- What a builder leaves when it succeeds (41_outbound.md R114 to R116): a finalised frame of the given request,
response and payload, cursor 0, every other cell and the model's own inputs as before. -/
def builtFrame (a b : Halfword) (q : List Byte) (s t : State) : Prop :=
  t.header = Config.magic ∧ t.request = a ∧ t.response = b ∧ t.length = BitVec.ofNat 16 q.length ∧
    t.checksum = crc16 (leBytes a ++ leBytes b ++ leBytes (BitVec.ofNat 16 q.length) ++ q) ∧
    t.internalCounter = 0 ∧ t.dataLengthCounter = 0x0000#16 ∧ t.status = .ok ∧ t.result = resultOf .ok 0x0000#16 ∧
    t.capacity = s.capacity ∧ t.commands = s.commands ∧ t.draws = s.draws ∧
    (∀ k (h : k < q.length), memRead t k = some q[k]) ∧ (∀ k, q.length ≤ k → memRead t k = memRead s k)

/-- What a builder leaves when its payload does not fit: lazily reset, fields set, not finalised (41_outbound.md R114). -/
def unbuiltFrame (a b : Halfword) (s : State) : State :=
  { s with
    header := 0x0000#16
    checksum := 0x0000#16
    request := a
    response := b
    length := 0x0000#16
    internalCounter := 0
    dataLengthCounter := 0x0000#16
    status := .packetOverflow
    result := resultOf .packetOverflow 0x0000#16 }

end Sys2Proof.Machine
end

