-- ==== Sys2Proof/WellFormed.lean ====
section
/-! DEFINITION. Which commands and which capacities the spec admits. Every term of `Instr` is well-formed by its type:
each operand has the width the spec gives it, and a byte sequence may have any finite length (30_encoding.md R79). -/

namespace Sys2Proof

/-- The operation codes of 30_encoding.md R79, in the table's order. -/
def definedOpcodes : List Byte :=
  [0x01#8, 0x02#8, 0x10#8, 0x20#8, 0x21#8, 0x22#8, 0x23#8, 0x24#8, 0x25#8, 0x26#8] ++
  [0x28#8, 0x29#8, 0x30#8, 0x40#8, 0x41#8, 0x42#8, 0x43#8, 0x44#8, 0x45#8]

/-- The code is one of the table; every other code is undefined (30_encoding.md R80). -/
def opcodeDefined (op : Byte) : Bool := definedOpcodes.contains op

/-- The operations that use operand `a` (30_encoding.md R79). -/
def usesA (op : Byte) : Bool := [0x20#8, 0x21#8, 0x24#8, 0x25#8, 0x30#8, 0x45#8].contains op

/-- The operation that uses operand `b`: PACK_ERROR (30_encoding.md R79). -/
def usesB (op : Byte) : Bool := op == 0x25#8

/-- The operations that use operand `q` (30_encoding.md R79). -/
def usesQ (op : Byte) : Bool := [0x10#8, 0x22#8, 0x24#8, 0x25#8, 0x26#8].contains op

/-- The bits of operand `a` that the operation ignores are zero; CONSTRUCT ignores `a[15:8]` (30_encoding.md R79). -/
def unusedAZero (c : Command) : Bool :=
  if c.op == 0x30#8 then (c.a >>> 8) == 0#16 else usesA c.op || c.a == 0#16

/-- "Unused operands are encoded as zero" (30_encoding.md R83). -/
def unusedOperandsZero (c : Command) : Bool :=
  unusedAZero c && (usesB c.op || c.b == 0#16) && (usesQ c.op || c.q.isEmpty)

/-- A well-formed command has a defined operation code. Unused operands may hold anything: they are ignored
(30_encoding.md R79, R80). -/
def Command.wf (c : Command) : Bool := opcodeDefined c.op

/-- The one spelling of a command that a script line denotes (30_encoding.md R83). -/
def Command.canonical (c : Command) : Bool := c.wf && unusedOperandsZero c

/-- CAPACITY is within `0..65534` (00_scope.md R4). -/
def capacityInRange (n : Nat) : Bool := decide (n < 65535)

/-- Building an instance: a capacity outside the range is a fatal precondition violation, "no such instance can be
built" (60_exceptions.md R187, 93_implementation_defined.md U10). -/
def capacityOf? (n : Nat) : Option Capacity := if h : n < 65535 then some ⟨n, h⟩ else none

end Sys2Proof
end

