-- ==== Sys2Proof/Certificates/Slice0/Obligations.lean ====
section
/-! DEFINITION. The statements for the provers, each with the rule of the spec it formalises. -/

open Sys2Proof Sys2Proof.Machine

/-! ### Encoding and the step -/

/-- 30_encoding.md R79: the operation is selected by `op` alone, whatever the operands hold; each operation takes the
operands the table gives it and ignores the others, and CONSTRUCT ignores `a[15:8]`. -/
def Obligations.OpcodeSelectsOperation : Prop :=
  ∀ (a b : Halfword) (q : List Byte),
    decode ⟨0x01#8, a, b, q⟩ = .instr .reset ∧ decode ⟨0x02#8, a, b, q⟩ = .instr .resetLazy ∧
    decode ⟨0x10#8, a, b, q⟩ = .instr (.crc16 q) ∧ decode ⟨0x20#8, a, b, q⟩ = .instr (.setRequest a) ∧
    decode ⟨0x21#8, a, b, q⟩ = .instr (.setResponse a) ∧ decode ⟨0x22#8, a, b, q⟩ = .instr (.addData q) ∧
    decode ⟨0x23#8, a, b, q⟩ = .instr .pack ∧ decode ⟨0x24#8, a, b, q⟩ = .instr (.packData a q) ∧
    decode ⟨0x25#8, a, b, q⟩ = .instr (.packError a b q) ∧ decode ⟨0x26#8, a, b, q⟩ = .instr (.packId q) ∧
    decode ⟨0x28#8, a, b, q⟩ = .instr .bytes ∧ decode ⟨0x29#8, a, b, q⟩ = .instr .getByte ∧
    decode ⟨0x30#8, a, b, q⟩ = .instr (.construct (lo8 a)) ∧ decode ⟨0x40#8, a, b, q⟩ = .instr .getRequest ∧
    decode ⟨0x41#8, a, b, q⟩ = .instr .getResponse ∧ decode ⟨0x42#8, a, b, q⟩ = .instr .getLength ∧
    decode ⟨0x43#8, a, b, q⟩ = .instr .getChecksum ∧ decode ⟨0x44#8, a, b, q⟩ = .instr .getStatus ∧
    decode ⟨0x45#8, a, b, q⟩ = .instr (.getData a)

/-- 30_encoding.md R80: a command whose code is outside the table is refused by name, and is not a no-operation; every
command whose code is in the table decodes. -/
def Obligations.UndefinedCodeIsRefusedByName : Prop :=
  (∀ (s : State) (c : Command) (rest : List Command), s.commands = c :: rest → opcodeDefined c.op = false →
    step s = .refused (.unknownOperation c.op)) ∧
  (∀ c : Command, opcodeDefined c.op = true → ∃ i, decode c = .instr i)

/-- A step accepts the driver's oldest command and runs the operation it decodes to, on the state without that command;
with no command issued the block stays as it is (00_scope.md R8; log 1). -/
def Obligations.StepRunsDecodedCommand : Prop :=
  (∀ (s : State) (c : Command) (rest : List Command) (i : Instr), s.commands = c :: rest → decode c = .instr i →
    step s = exec i { s with commands := rest }) ∧
  (∀ s : State, s.commands = [] → step s = .next s)

/-- Decode and encode agree: every operation, at every value of its operands, is what its command's bytes decode to. The
byte layout of a command is the model's choice (log 9); the record is 30_encoding.md R79. -/
def Obligations.EncodedOperationDecodesBack : Prop :=
  ∀ i : Instr, decode (Command.ofBytes (Command.toBytes (encode i))) = .instr i

/-- Each canonical command (30_encoding.md R83: unused operands zero) is the encoding of the operation it decodes to, so
no two canonical commands mean the same operation. -/
def Obligations.CanonicalCommandIsItsEncoding : Prop :=
  ∀ (c : Command) (i : Instr), decode c = .instr i → c.canonical = true → encode i = c

/-! ### Reset -/

/-- 10_state.md R35: what power-on, RESET and RESET_LAZY leave, for every capacity and every state before. -/
def Obligations.ResetsLeaveTheResetValues : Prop :=
  (∀ cap : Capacity, (State.powerOn cap).registersReset ∧
    ∀ a, a < cap.val → memRead (State.powerOn cap) a = some 0x00#8) ∧
  (∀ s : State, ∃ t, exec .reset s = .next t ∧ t.registersReset ∧
    ∀ a, a < s.capacity.val → memRead t a = some 0x00#8) ∧
  (∀ s : State, ∃ t, exec .resetLazy s = .next t ∧ t.registersReset ∧ ∀ a, memRead t a = memRead s a)

/-- 43_reset_access.md R150: from every state RESET answers Ok and ends in the power-on state of that capacity. (The
driver's further commands and the count of draws, fields of the model's own, stay; log 1, log 3.) -/
def Obligations.FullResetEndsInPowerOnState : Prop :=
  ∀ s : State, exec .reset s = .next { State.powerOn s.capacity with
    commands := s.commands, draws := s.draws, result := resultOf .ok 0x0000#16 }

/-- 43_reset_access.md R151: from every state RESET_LAZY answers Ok, clears the five framing registers, both counters and
the status, and changes nothing else: every cell keeps its value. -/
def Obligations.LazyResetKeepsThePayloadCells : Prop :=
  ∀ s : State, exec .resetLazy s = .next { s with
    header := 0x0000#16, checksum := 0x0000#16, request := 0x0000#16, response := 0x0000#16, length := 0x0000#16,
    internalCounter := 0, dataLengthCounter := 0x0000#16, status := .ok, result := resultOf .ok 0x0000#16 }

/-- 43_reset_access.md R158, made exact (log 15): from a full and from a lazy reset of the same capacity, a script that
keeps the usage contract and reads written cells only gives the same results, and the two runs end in states that agree on
every register and on every cell written since. The one premise on the buffer is its canonical form, which every step
keeps. -/
def Obligations.LazyResetActsLikeFullReset : Prop :=
  ∀ (role : Role) (script : List Instr) (u v s t : State),
    u.capacity = v.capacity → Memory.wf v.data = true → exec .reset u = .next s → exec .resetLazy v = .next t →
    scriptKeepsContract role script s →
    (runOps script s).1 = (runOps script t).1 ∧
      ∃ s' t', (runOps script s).2 = .next s' ∧ (runOps script t).2 = .next t' ∧ s'.agreesWith t' role

/-- Why R158 needs more than its one exclusion (log 15): in the middle of a reception after a lazy reset, with a length of
one decoded and no payload byte yet received, the old message's first byte is what BYTES returns last, what GET_DATA and
GET_BYTE return, and what PACK carries into `checksum`, each by its own rule (R117, R157, R118, R113). -/
def Obligations.StaleByteShowsDuringReception : Prop :=
  ∀ s t : State, 0 < s.capacity.val → exec .resetLazy s = .next t →
    ∃ u, feed [0x55#8, 0x55#8, 0x00#8, 0x00#8, 0x00#8, 0x00#8, 0x00#8, 0x00#8, 0x01#8, 0x00#8] t =
        (List.replicate 10 .packetBuilding, .next u) ∧
      exec .bytes u = .next { u with result := some ⟨.ok, 0x0000#16,
        some [0x55#8, 0x55#8, 0x00#8, 0x00#8, 0x00#8, 0x00#8, 0x00#8, 0x00#8, 0x01#8, 0x00#8,
          Memory.read s.data 0]⟩ } ∧
      exec (.getData 0x0000#16) u = .next { u with result := resultOf .ok (zext16 (Memory.read s.data 0)) } ∧
      exec .getByte u = .next { u with
        internalCounter := 11, status := .ok, result := resultOf .ok (zext16 (Memory.read s.data 0)) } ∧
      exec .pack u = .next { u with
        checksum := crc16 [0x00#8, 0x00#8, 0x00#8, 0x00#8, 0x01#8, 0x00#8, Memory.read s.data 0]
        header := Config.magic
        result := resultOf .ok 0x0000#16 }

/-! ### Checksum -/

/-- 40_checksum.md R100: every entry of the printed table is what the bit-serial procedure gives; the spot checks; the
table is XOR-linear. -/
def Obligations.CrcTableIsGenerated : Prop :=
  (∀ i : Byte, crcTable i = crcTableProcedure i) ∧
  crcTable 0x00#8 = 0x0000#16 ∧ crcTable 0x01#8 = 0xC0C1#16 ∧ crcTable 0x80#8 = 0xA001#16 ∧
  crcTable 0xFF#8 = 0x4040#16 ∧ ∀ i j : Byte, crcTable (i ^^^ j) = crcTable i ^^^ crcTable j

/-- 40_checksum.md R101 and R102: the update of one byte, from any accumulator; the checksum of a sequence is its fold from
CRC_INIT, first byte first, with no post-processing. No value of CRC_INIT is claimed (log 5). -/
def Obligations.CrcIsTheFoldOfItsUpdate : Prop :=
  (∀ (crc : Halfword) (b : Byte), crcUpdate crc b = crcTable (lo8 crc ^^^ b) ^^^ zext16 (hi8 crc)) ∧
  crc16 [] = Config.crcInit ∧
  ∀ (q : List Byte) (b : Byte), crc16 (q ++ [b]) = crcTable (lo8 (crc16 q) ^^^ b) ^^^ zext16 (hi8 (crc16 q))

/-- 40_checksum.md R103: CRC16 answers Ok with the checksum of its operand and changes no state (only the result output
takes the answer). -/
def Obligations.CrcOperationReturnsTheChecksum : Prop :=
  ∀ (q : List Byte) (s : State), exec (.crc16 q) s = .next { s with result := resultOf .ok (crc16 q) }

/-- 40_checksum.md R105, third property: on sequences of equal length the XOR of two checksums is the checksum of the XOR
of the sequences, started from zero. -/
def Obligations.CrcIsXorLinear : Prop :=
  ∀ q r : List Byte, q.length = r.length →
    crc16 q ^^^ crc16 r = crcFold 0x0000#16 (List.zipWith (· ^^^ ·) q r)

/-- 40_checksum.md R105, fourth property: sequences that differ in exactly one bit have different checksums. -/
def Obligations.CrcDetectsEverySingleBitError : Prop :=
  ∀ (q : List Byte) (j k : Nat) (h : j < q.length), k < 8 →
    crc16 (q.set j (q[j] ^^^ (1#8 <<< k))) ≠ crc16 q

/-! ### Memory primitives -/

/-- 20_memory.md R51: below CAPACITY a write is read back, changes no other cell and nothing but the buffer; at and above
it both primitives are refused. The premise is the buffer's canonical form, which every step keeps. -/
def Obligations.MemWriteIsReadBack : Prop :=
  (∀ (s : State) (a : Nat) (v : Byte), a < s.capacity.val → Memory.wf s.data = true →
    ∃ m, memWrite s a v = some { s with data := m } ∧ memRead { s with data := m } a = some v ∧
      ∀ a', a' ≠ a → memRead { s with data := m } a' = memRead s a') ∧
  (∀ (s : State) (a : Nat), a < s.capacity.val → ∃ b, memRead s a = some b) ∧
  (∀ (s : State) (a : Nat) (v : Byte), s.capacity.val ≤ a → memRead s a = none ∧ memWrite s a v = none)

/-! ### Outbound -/

/-- 41_outbound.md R110 and R111: from every state the field writes answer Ok, write their one register, and change
nothing else; the checksum and the status are not updated. -/
def Obligations.FieldWritesSetTheirField : Prop :=
  ∀ (a : Halfword) (s : State),
    exec (.setRequest a) s = .next { s with request := a, result := resultOf .ok 0x0000#16 } ∧
    exec (.setResponse a) s = .next { s with response := a, result := resultOf .ok 0x0000#16 }

/-- 41_outbound.md R112: ADD_DATA appends exactly when the natural-number sum fits, at the cells from `length` on, and
changes otherwise only `length`, `status` and the result; else it answers PacketOverflow and changes `status` (and the
result) only. -/
def Obligations.AddDataAppendsOrOverflows : Prop :=
  (∀ (q : List Byte) (s : State), q.length + s.length.toNat ≤ s.capacity.val → Memory.wf s.data = true →
    ∃ t, exec (.addData q) s = .next t ∧
      t = { s with
        data := t.data, length := t.length, status := .ok, result := resultOf .ok 0x0000#16 } ∧
      t.length.toNat = s.length.toNat + q.length ∧
      (∀ k (h : k < q.length), memRead t (s.length.toNat + k) = some q[k]) ∧
      ∀ a, (a < s.length.toNat ∨ s.length.toNat + q.length ≤ a) → memRead t a = memRead s a) ∧
  (∀ (q : List Byte) (s : State), s.capacity.val < q.length + s.length.toNat →
    exec (.addData q) s = .next { s with
      status := .packetOverflow, result := resultOf .packetOverflow 0x0000#16 })

/-- Two appends that succeed are one append of both payloads: the same state, the same buffer as data. -/
def Obligations.AppendsConcatenate : Prop :=
  ∀ (q r : List Byte) (s t u : State), exec (.addData q) s = .next t → t.status = .ok →
    exec (.addData r) t = .next u → u.status = .ok → exec (.addData (q ++ r)) s = .next u

/-- 41_outbound.md R113, with the coverage of 40_checksum.md R104: PACK writes the checksum of request, response, length
and valid payload, and the magic header, and changes nothing else; while the length exceeds CAPACITY it is refused. -/
def Obligations.PackWritesChecksumAndHeader : Prop :=
  (∀ s : State, s.lengthFits → exec .pack s = .next { s with
    checksum := crc16 ([lo8 s.request, hi8 s.request, lo8 s.response, hi8 s.response, lo8 s.length, hi8 s.length] ++
      s.validBytes)
    header := 0x5555#16
    result := resultOf .ok 0x0000#16 }) ∧
  (∀ s : State, ¬s.lengthFits → exec .pack s = .refused .dataIndexOutOfRange) ∧
  (∀ cap : Capacity, exec .pack (State.powerOn cap) = .next { State.powerOn cap with
    header := 0x5555#16, result := resultOf .ok 0x0000#16 })

/-- 41_outbound.md R113, third corner case: PACK is idempotent, and what it leaves is finalised. -/
def Obligations.PackIsIdempotent : Prop :=
  ∀ s t : State, exec .pack s = .next t → exec .pack t = .next t ∧ t.finalised

/-- 41_outbound.md R114, R115, R116: a builder whose payload fits answers Ok and leaves the finalised frame of its request,
response and payload, cells beyond the payload untouched; PACK_DATA gives the response 0x0001, PACK_ID the request 0x0001
and the response 0x0001. A builder overflows exactly when its payload exceeds CAPACITY; it then leaves the packet lazily
reset with the fields set, not finalised, and every cell as before. -/
def Obligations.BuildersFinaliseOrOverflow : Prop :=
  (∀ (a b : Halfword) (q : List Byte) (s : State), q.length ≤ s.capacity.val → Memory.wf s.data = true →
    (∃ t, exec (.packData a q) s = .next t ∧ builtFrame a 0x0001#16 q s t) ∧
    (∃ t, exec (.packError a b q) s = .next t ∧ builtFrame a b q s t) ∧
    (∃ t, exec (.packId q) s = .next t ∧ builtFrame 0x0001#16 0x0001#16 q s t)) ∧
  (∀ (a b : Halfword) (q : List Byte) (s : State), s.capacity.val < q.length →
    exec (.packData a q) s = .next (unbuiltFrame a 0x0001#16 s) ∧
    exec (.packError a b q) s = .next (unbuiltFrame a b s) ∧
    exec (.packId q) s = .next (unbuiltFrame 0x0001#16 0x0001#16 s))

/-- 30_encoding.md R84, the builders: PACK_ERROR is the sequence RESET_LAZY, SET_REQUEST, SET_RESPONSE, ADD_DATA and, if
that answered Ok, PACK; PACK_DATA and PACK_ID are PACK_ERROR with the conventional codes. -/
def Obligations.BuildersAreTheirSequences : Prop :=
  ∀ (a b : Halfword) (q : List Byte) (s : State),
    exec (.packError a b q) s =
      andThen (exec .resetLazy s) (fun s1 => andThen (exec (.setRequest a) s1) fun s2 =>
        andThen (exec (.setResponse b) s2) fun s3 => andThen (exec (.addData q) s3) fun s4 =>
          if s4.result = resultOf .ok 0x0000#16 then exec .pack s4 else .next s4) ∧
    exec (.packData a q) s = exec (.packError a 0x0001#16 q) s ∧
    exec (.packId q) s = exec (.packError 0x0001#16 0x0001#16 q) s

/-- 41_outbound.md R117, with the image of 30_encoding.md R71: BYTES returns the ten framing bytes in field order, each low
byte first, and the valid payload, `10 + length` bytes; it changes no state; while the length exceeds CAPACITY it is
refused. -/
def Obligations.BytesReturnsTheImage : Prop :=
  (∀ s : State, s.lengthFits →
    ∃ r : List Byte, r.length = 10 + s.length.toNat ∧
      r = [lo8 s.header, hi8 s.header, lo8 s.checksum, hi8 s.checksum, lo8 s.request, hi8 s.request,
        lo8 s.response, hi8 s.response, lo8 s.length, hi8 s.length] ++ s.validBytes ∧
      exec .bytes s = .next { s with result := some ⟨.ok, 0x0000#16, some r⟩ }) ∧
  (∀ s : State, ¬s.lengthFits → exec .bytes s = .refused .dataIndexOutOfRange)

/-- 41_outbound.md R118: before the end GET_BYTE returns the image's byte at the cursor, moves the cursor on by one and
writes Ok; past the end it returns GetByteFinished with the value 0x00 and the cursor at 0; it is refused exactly where the
byte is a cell that does not exist; it changes nothing else. -/
def Obligations.GetByteReturnsTheByteAtTheCursor : Prop :=
  (∀ (s : State) (b : Byte), s.lengthFits → (framingBytes s ++ s.validBytes)[s.internalCounter]? = some b →
    exec .getByte s = .next { s with
      internalCounter := s.internalCounter + 1, status := .ok, result := resultOf .ok (zext16 b) }) ∧
  (∀ s : State, s.internalCounter < 10 + s.length.toNat → (s.internalCounter < 10 ∨
      s.internalCounter - 10 < s.capacity.val) →
    ∃ b, imageByte s s.internalCounter = some b ∧ exec .getByte s = .next { s with
      internalCounter := s.internalCounter + 1, status := .ok, result := resultOf .ok (zext16 b) }) ∧
  (∀ s : State, s.internalCounter < 10 + s.length.toNat → 10 ≤ s.internalCounter →
    s.capacity.val ≤ s.internalCounter - 10 → exec .getByte s = .refused .dataIndexOutOfRange) ∧
  (∀ s : State, 10 + s.length.toNat ≤ s.internalCounter → exec .getByte s = .next { s with
    internalCounter := 0, status := .getByteFinished, result := resultOf .getByteFinished 0x0000#16 })

/-- 41_outbound.md R118, first corner case, for DRAIN of 30_encoding.md R84: from cursor 0, `10 + length` calls return the
bytes of the image in order and one more returns GetByteFinished, cursor 0 again and everything else as before. -/
def Obligations.DrainEmitsTheWholeFrame : Prop :=
  ∀ s : State, s.lengthFits → s.internalCounter = 0 →
    drain (11 + s.length.toNat) s = (framingBytes s ++ s.validBytes, .next { s with
      status := .getByteFinished, result := resultOf .getByteFinished 0x0000#16 })

/-! ### Inbound -/

/-- 42_inbound.md R131 and R132: at positions 0 and 1 a byte other than 0x55 goes back to position 0 with
HeaderBytesNotFound and changes no other register; 0x55 is stored in its lane of `header` and moves on. -/
def Obligations.HeaderPositionsAcceptOnlyMagic : Prop :=
  (∀ (b : Byte) (s : State), (s.internalCounter = 0 ∨ s.internalCounter = 1) → b ≠ 0x55#8 →
    exec (.construct b) s = .next { s with
      internalCounter := 0, status := .headerBytesNotFound, result := resultOf .headerBytesNotFound 0x0000#16 }) ∧
  (∀ s : State, s.internalCounter = 0 → exec (.construct 0x55#8) s = .next { s with
    header := halfword (hi8 s.header) 0x55#8, internalCounter := 1, status := .packetBuilding,
    result := resultOf .packetBuilding 0x0000#16 }) ∧
  (∀ s : State, s.internalCounter = 1 → exec (.construct 0x55#8) s = .next { s with
    header := halfword 0x55#8 (lo8 s.header), internalCounter := 2, status := .packetBuilding,
    result := resultOf .packetBuilding 0x0000#16 })

/-- 42_inbound.md R133 to R136: at positions 2 to 8 the byte is stored in its lane, the other lane keeps its value, and
the result is PacketBuilding. -/
def Obligations.FieldPositionsStoreTheirLane : Prop :=
  ∀ (b : Byte) (s : State),
    (s.internalCounter = 2 → exec (.construct b) s = .next { s with
      checksum := halfword (hi8 s.checksum) b, internalCounter := 3, status := .packetBuilding,
      result := resultOf .packetBuilding 0x0000#16 }) ∧
    (s.internalCounter = 3 → exec (.construct b) s = .next { s with
      checksum := halfword b (lo8 s.checksum), internalCounter := 4, status := .packetBuilding,
      result := resultOf .packetBuilding 0x0000#16 }) ∧
    (s.internalCounter = 4 → exec (.construct b) s = .next { s with
      request := halfword (hi8 s.request) b, internalCounter := 5, status := .packetBuilding,
      result := resultOf .packetBuilding 0x0000#16 }) ∧
    (s.internalCounter = 5 → exec (.construct b) s = .next { s with
      request := halfword b (lo8 s.request), internalCounter := 6, status := .packetBuilding,
      result := resultOf .packetBuilding 0x0000#16 }) ∧
    (s.internalCounter = 6 → exec (.construct b) s = .next { s with
      response := halfword (hi8 s.response) b, internalCounter := 7, status := .packetBuilding,
      result := resultOf .packetBuilding 0x0000#16 }) ∧
    (s.internalCounter = 7 → exec (.construct b) s = .next { s with
      response := halfword b (lo8 s.response), internalCounter := 8, status := .packetBuilding,
      result := resultOf .packetBuilding 0x0000#16 }) ∧
    (s.internalCounter = 8 → exec (.construct b) s = .next { s with
      length := halfword (hi8 s.length) b, internalCounter := 9, status := .packetBuilding,
      result := resultOf .packetBuilding 0x0000#16 })

/-- 42_inbound.md R137, with `Validate` of 40_checksum.md R106: at position 9 the length's high lane is stored; a length of
0 validates the six bytes at offsets 4 to 9 at once; a length above CAPACITY is rejected; the counter stays 9 in both; any
other length moves on to the payload. -/
def Obligations.LengthIsDecodedAndTested : Prop :=
  ∀ (b : Byte) (s : State) (l : Halfword), s.internalCounter = 9 → l = halfword b (lo8 s.length) →
    (l = 0x0000#16 → s.checksum = crc16 [lo8 s.request, hi8 s.request, lo8 s.response, hi8 s.response, 0x00#8, 0x00#8] →
      exec (.construct b) s = .next { s with
        length := l, status := .packetReceived, result := resultOf .packetReceived 0x0000#16 }) ∧
    (l = 0x0000#16 → s.checksum ≠ crc16 [lo8 s.request, hi8 s.request, lo8 s.response, hi8 s.response, 0x00#8, 0x00#8] →
      exec (.construct b) s = .next { s with
        length := l, status := .checksumError, result := resultOf .checksumError 0x0000#16 }) ∧
    (s.capacity.val < l.toNat → exec (.construct b) s = .next { s with
      length := l, status := .invalidDataLengthDetected, result := resultOf .invalidDataLengthDetected 0x0000#16 }) ∧
    (0 < l.toNat → l.toNat ≤ s.capacity.val → exec (.construct b) s = .next { s with
      length := l, internalCounter := 10, status := .packetBuilding, result := resultOf .packetBuilding 0x0000#16 })

/-- 42_inbound.md R138 and R139: from position 10 on a byte beyond the frame end is dropped with PacketOverflow; any other
is stored at `data_length_counter`, every other cell as before, or refused where that cell does not exist; the byte that
completes the payload validates the frame, stored byte included, and leaves the counter; any other moves on. -/
def Obligations.PayloadPositionsStoreAndValidate : Prop :=
  (∀ (b : Byte) (s : State), 10 ≤ s.internalCounter →
    (s.length.toNat ≤ s.dataLengthCounter.toNat ∨ s.length.toNat ≤ s.internalCounter - 10) →
    exec (.construct b) s = .next { s with
      status := .packetOverflow, result := resultOf .packetOverflow 0x0000#16 }) ∧
  (∀ (b : Byte) (s : State), 10 ≤ s.internalCounter → s.dataLengthCounter.toNat < s.length.toNat →
    s.internalCounter - 10 < s.length.toNat → s.capacity.val ≤ s.dataLengthCounter.toNat →
    exec (.construct b) s = .refused .dataIndexOutOfRange) ∧
  (∀ (b : Byte) (s : State), 10 ≤ s.internalCounter → s.dataLengthCounter.toNat < s.length.toNat →
    s.internalCounter - 10 < s.length.toNat → s.dataLengthCounter.toNat < s.capacity.val →
    Memory.wf s.data = true →
    ∃ t, exec (.construct b) s = .next t ∧
      t = { s with
        data := t.data, dataLengthCounter := t.dataLengthCounter, internalCounter := t.internalCounter,
        status := t.status, result := resultOf t.status 0x0000#16 } ∧
      t.dataLengthCounter.toNat = s.dataLengthCounter.toNat + 1 ∧
      memRead t s.dataLengthCounter.toNat = some b ∧
      (∀ a, a ≠ s.dataLengthCounter.toNat → memRead t a = memRead s a) ∧
      (s.dataLengthCounter.toNat + 1 < s.length.toNat →
        t.internalCounter = s.internalCounter + 1 ∧ t.status = .packetBuilding) ∧
      (s.dataLengthCounter.toNat + 1 = s.length.toNat →
        t.internalCounter = s.internalCounter ∧
        (frameCrc t = some s.checksum → t.status = .packetReceived) ∧
        (frameCrc t ≠ some s.checksum → t.status = .checksumError)))

/-- 60_exceptions.md R183 and 70_reset_and_hazards.md R207: whatever the byte, CONSTRUCT answers one of its six statuses,
the same in the status register and in the result, at every position up to 9 and, beyond it, whenever the length fits. -/
def Obligations.ConstructAlwaysAnswersItsStatus : Prop :=
  ∀ (b : Byte) (s : State), s.internalCounter ≤ 9 ∨ s.lengthFits →
    ∃ t, exec (.construct b) s = .next t ∧ t.result = resultOf t.status 0x0000#16 ∧
      t.status ∈ [Status.packetBuilding, .packetReceived, .headerBytesNotFound, .checksumError, .packetOverflow,
        .invalidDataLengthDetected]

/-- 42_inbound.md R140: the counter moves on by one on a PacketBuilding result and on no other; HeaderBytesNotFound leaves
it 0; every other result leaves it where it was. -/
def Obligations.CounterAdvancesOnlyWhileBuilding : Prop :=
  ∀ (b : Byte) (s t : State), exec (.construct b) s = .next t →
    (t.status = .packetBuilding ↔ t.internalCounter = s.internalCounter + 1) ∧
    (t.status = .headerBytesNotFound → t.internalCounter = 0 ∧ s.internalCounter ≤ 1) ∧
    (t.status ≠ .packetBuilding → t.status ≠ .headerBytesNotFound → t.internalCounter = s.internalCounter)

/-- 42_inbound.md R143: after a terminal outcome at a payload position every further byte gives PacketOverflow and changes
nothing but the status (and the result); after a terminal outcome at position 9 the counter is still 9, so the next byte
is taken as the length's high byte again. -/
def Obligations.NoLatchAfterATerminalOutcome : Prop :=
  ∀ (b c : Byte) (s t : State), exec (.construct b) s = .next t → terminalOutcome t.status = true →
    (10 ≤ s.internalCounter → exec (.construct c) t = .next { t with
      status := .packetOverflow, result := resultOf .packetOverflow 0x0000#16 }) ∧
    (s.internalCounter ≤ 9 → t.internalCounter = 9 ∧ ∀ u, exec (.construct c) t = .next u →
      u.length = halfword c (lo8 t.length))

/-- 41_outbound.md R120, the round trip: the image of a packet that PACK has finalised, fed byte by byte to a reset
receiver that can hold it, gives PacketBuilding for every byte but the last and PacketReceived for the last, and the
receiver then holds the transmitter's fields and payload. -/
def Obligations.RoundTripReceivesTheFrame : Prop :=
  ∀ u tx rx : State, exec .pack u = .next tx → rx.registersReset → Memory.wf rx.data = true →
    tx.length.toNat ≤ rx.capacity.val →
    ∃ im t, image tx = some im ∧
      feed im rx = (List.replicate (9 + tx.length.toNat) .packetBuilding ++ [.packetReceived], .next t) ∧
      t.request = tx.request ∧ t.response = tx.response ∧ t.length = tx.length ∧ t.checksum = tx.checksum ∧
      t.header = tx.header ∧ ∀ a, a < tx.length.toNat → memRead t a = memRead tx a

/-- 42_inbound.md R144 (b): noise without a 0x55 byte gives HeaderBytesNotFound for each byte, and a valid frame after it
is received as if the noise had not been. -/
def Obligations.NoiseBeforeAFrameIsSkipped : Prop :=
  ∀ (u tx rx : State) (noise : List Byte), exec .pack u = .next tx → rx.registersReset → Memory.wf rx.data = true →
    tx.length.toNat ≤ rx.capacity.val → (∀ b ∈ noise, b ≠ 0x55#8) →
    ∃ im t, image tx = some im ∧
      feed (noise ++ im) rx = (List.replicate noise.length .headerBytesNotFound ++
        List.replicate (9 + tx.length.toNat) .packetBuilding ++ [.packetReceived], .next t) ∧
      t.request = tx.request ∧ t.response = tx.response ∧ t.length = tx.length ∧
      ∀ a, a < tx.length.toNat → memRead t a = memRead tx a

/-- 42_inbound.md R144 (a): from a reset, no stream of bytes ends in PacketReceived unless two consecutive bytes of it were
0x55, and they are the two that the machine took at positions 0 and 1: the counter is 0 before them and 2 after them. -/
def Obligations.NoFrameWithoutTheMagicHeader : Prop :=
  ∀ (bs : List Byte) (rx t : State), rx.registersReset → (feed bs rx).2 = .next t → t.status = .packetReceived →
    t.header = 0x5555#16 ∧ ∃ (j : Nat) (before behind : State), bs[j]? = some 0x55#8 ∧ bs[j + 1]? = some 0x55#8 ∧
      (feed (bs.take j) rx).2 = .next before ∧ before.internalCounter = 0 ∧
      (feed (bs.take (j + 2)) rx).2 = .next behind ∧ behind.internalCounter = 2

/-- 42_inbound.md R145, every offset but the header and the length: one byte changed in a valid frame, in any of its bits,
gives PacketBuilding for every byte but the last and ChecksumError at the last. -/
def Obligations.SingleByteErrorIsDetected : Prop :=
  ∀ (u tx rx : State) (im : List Byte) (j : Nat) (b : Byte) (h : j < im.length), exec .pack u = .next tx →
    image tx = some im → rx.registersReset → Memory.wf rx.data = true → tx.length.toNat ≤ rx.capacity.val →
    ((2 ≤ j ∧ j < 8) ∨ 10 ≤ j) → b ≠ im[j] →
    ∃ t, feed (im.set j b) rx =
      (List.replicate (9 + tx.length.toNat) .packetBuilding ++ [.checksumError], .next t)

/-! ### Accessors -/

/-- 43_reset_access.md R152 to R156: from every state the accessors answer Ok with their register and change no state; the
status is returned as its code of 30_encoding.md R81, zero-extended. -/
def Obligations.AccessorsReturnTheirRegister : Prop :=
  ∀ s : State,
    exec .getRequest s = .next { s with result := resultOf .ok s.request } ∧
    exec .getResponse s = .next { s with result := resultOf .ok s.response } ∧
    exec .getLength s = .next { s with result := resultOf .ok s.length } ∧
    exec .getChecksum s = .next { s with result := resultOf .ok s.checksum } ∧
    ∀ c ∈ [(Status.ok, 0x0000#16), (.packetBuilding, 0x0001#16), (.packetReceived, 0x0002#16),
        (.getByteFinished, 0x0003#16), (.headerBytesNotFound, 0x0004#16), (.checksumError, 0x0005#16),
        (.packetOverflow, 0x0006#16), (.invalidDataLengthDetected, 0x0007#16)],
      s.status = c.1 → exec .getStatus s = .next { s with result := resultOf .ok c.2 }

/-- 43_reset_access.md R157: below `length` GET_DATA returns the cell, refused where it does not exist; at and above it an
unspecified byte, whatever that is: only the count of draws, the model's own (log 3), moves. -/
def Obligations.GetDataReturnsValidBytesOnly : Prop :=
  ∀ (a : Halfword) (s : State),
    (a.toNat < s.length.toNat → a.toNat < s.capacity.val →
      exec (.getData a) s = .next { s with result := resultOf .ok (zext16 (Memory.read s.data a.toNat)) }) ∧
    (a.toNat < s.length.toNat → s.capacity.val ≤ a.toNat → exec (.getData a) s = .refused .dataIndexOutOfRange) ∧
    (s.length.toNat ≤ a.toNat → ∃ b : Byte, exec (.getData a) s = .next { s with
      draws := s.draws + 1, result := resultOf .ok (zext16 b) })

/-! ### Whole-machine rules -/

/-- 10_state.md R21 to R29, the "Written by" lists, and 20_memory.md R56: no operation changes a register, a counter or the
status that its list does not give it, nor ever the capacity or the driver's further commands; and of the buffer only the
cells of R56: an append that fits those from `length` on, a builder those from 0 on, CONSTRUCT from position 10 on the one
at `data_length_counter`, RESET all. -/
def Obligations.OnlyTheListedWritersWrite : Prop :=
  ∀ (i : Instr) (s t : State), exec i s = .next t →
    (∀ r : Register, r ∉ writes i s → s.sameIn t r) ∧ (∀ a, ¬writesCell i s a → memRead t a = memRead s a) ∧
      t.capacity = s.capacity ∧ t.commands = s.commands

/-- 10_state.md R29: an operation leaves the status alone or writes one of the values its row of the table lists. -/
def Obligations.StatusTakesOnlyItsListedValues : Prop :=
  ∀ (i : Instr) (s t : State), exec i s = .next t →
    (statusValues i = [] → t.status = s.status) ∧ (statusValues i ≠ [] → t.status ∈ statusValues i)

/-- 30_encoding.md R82: the result status of an operation that does not write the status register is Ok, and the register
keeps its value; of every other it is the value written. -/
def Obligations.ResultStatusIsTheStatusWritten : Prop :=
  ∀ (i : Instr) (s t : State), exec i s = .next t →
    ∃ x, t.result = some x ∧ (statusValues i = [] → x.st = .ok ∧ t.status = s.status) ∧
      (statusValues i ≠ [] → x.st = t.status)

/-- 10_state.md R29, "`status` is read only by GET_STATUS": for every other operation, a different status before changes
nothing after but a status the operation leaves alone. -/
def Obligations.StatusSteersNoOperation : Prop :=
  ∀ (i : Instr) (s : State) (x : Status), i ≠ .getStatus →
    (∀ t, exec i s = .next t →
      exec i (s.withStatus x) = .next (if statusValues i = [] then t.withStatus x else t)) ∧
    (∀ r, exec i s = .refused r → exec i (s.withStatus x) = .refused r)

/-- 00_scope.md R4: CAPACITY never changes, whatever the driver issues. -/
def Obligations.CapacityIsNeverChanged : Prop :=
  ∀ s t : State, step s = .next t → t.capacity = s.capacity

/-- 60_exceptions.md R190: a step is refused only for an operation code outside the table, or while the length exceeds
CAPACITY. -/
def Obligations.StepIsRefusedOnlyAsStated : Prop :=
  ∀ (s : State) (r : Refusal), step s = .refused r →
    (∃ c rest, s.commands = c :: rest ∧ opcodeDefined c.op = false ∧ r = .unknownOperation c.op) ∨
    (r = .dataIndexOutOfRange ∧ s.capacity.val < s.length.toNat)

/-- Every step keeps the shape of the state: a canonical buffer without cells outside `0 .. CAPACITY-1`, a counter of at
most `10 + length`, and only 0x00 or 0x55 in each lane of `header` (20_memory.md R50, 10_state.md R21, R27). -/
def Obligations.StepKeepsTheStateShape : Prop :=
  ∀ s t : State, s.shapeOk → step s = .next t → t.shapeOk

/-- A power-on state of every capacity has that shape, the reset state among them. -/
def Obligations.PowerOnHasTheStateShape : Prop :=
  (∀ cap : Capacity, (State.powerOn cap).shapeOk) ∧ State.reset.shapeOk

/-- 10_state.md R31, INV1: `length <= CAPACITY` is kept by every operation except CONSTRUCT at positions 8 and 9. -/
def Obligations.LengthBoundIsKept : Prop :=
  ∀ (i : Instr) (s t : State), s.lengthFits → exec i s = .next t →
    (∀ b, i = .construct b → s.internalCounter ≠ 8 ∧ s.internalCounter ≠ 9) → t.lengthFits

/-- 10_state.md R31, INV2: `data_length_counter <= length` is kept by every operation, unless CONSTRUCT is fed at
positions 8 or 9 while `data_length_counter > 0`. -/
def Obligations.DataCounterBoundIsKept : Prop :=
  ∀ (i : Instr) (s t : State), s.counterWithinLength → exec i s = .next t →
    (∀ b, i = .construct b → s.internalCounter = 8 ∨ s.internalCounter = 9 → s.dataLengthCounter = 0x0000#16) →
    t.counterWithinLength

/-- 60_exceptions.md R190, "neither can occur in a run that keeps the usage contract": an operation the contract allows, in
a state such a run reaches, answers a next state, and that state is again one. The predicate that renders the contract is
the model's (log 14). -/
def Obligations.ContractedOperationCompletes : Prop :=
  ∀ (role : Role) (i : Instr) (s : State), s.contractOk role → contractAllows role s i →
    ∃ t, exec i s = .next t ∧ t.contractOk role

/-- Either reset, from any state at all, and power-on start a run that keeps the contract, in either direction
(70_reset_and_hazards.md R201, R202; the predicate is the model's, log 14). -/
def Obligations.ResetStartsAContractedRun : Prop :=
  (∀ (cap : Capacity) (role : Role), (State.powerOn cap).contractOk role) ∧
  (∀ (s t : State) (role : Role), exec .reset s = .next t → t.contractOk role) ∧
  (∀ (s t : State) (role : Role), exec .resetLazy s = .next t → t.contractOk role)

/-! ### The descriptor PACK_ID carries -/

/-- 44_capability_descriptor.md R170 to R173: a name of at most 25 bytes makes a record whose packed form is 30 bytes and
parses back to it, the name padded with zeros; a longer name is rejected; every input of 30 bytes or more parses. -/
def Obligations.DescriptorRoundTrips : Prop :=
  (∀ (major minor patch : Byte) (size : Halfword) (name : List Byte), name.length ≤ 25 →
    ∃ d, Descriptor.make? major minor patch size name = some d ∧ d.toPacked.length = 30 ∧
      Descriptor.ofPacked? d.toPacked = some d ∧ d.major = major ∧ d.minor = minor ∧ d.patch = patch ∧
      d.maxPacketSize = size ∧ d.name = name ++ List.replicate (25 - name.length) 0x00#8) ∧
  (∀ (major minor patch : Byte) (size : Halfword) (name : List Byte), 25 < name.length →
    Descriptor.make? major minor patch size name = none) ∧
  (∀ bs : List Byte, 30 ≤ bs.length → ∃ d, Descriptor.ofPacked? bs = some d)

/-! ### The two resets, beyond the usage contract -/

/-- 43_reset_access.md R158 for every script, in either direction, mixed, or against the usage contract, under its own
exclusion and the one premise that its own reason names: no operation returns, or computes from, a cell that has not been
written since the reset. An operation that is refused, and every CONSTRUCT, meets the premise. From a full and from a lazy
reset of the same capacity such a script gives the same results and ends alike: refused for the same reason, or in states
that agree on every register and on every cell written since. R158's further words, agreement on `data[0 .. length-1]`,
follow where these cells have been written, and need not hold elsewhere (log 15). -/
def Obligations.ResetsAgreeOnScriptsReadingWrittenCells : Prop :=
  ∀ (script : List Instr) (u v s t : State),
    u.capacity = v.capacity → Memory.wf v.data = true → exec .reset u = .next s → exec .resetLazy v = .next t →
    scriptReadsWritten script (fun _ => False) s →
    (runOps script s).1 = (runOps script t).1 ∧
      ((∃ r, (runOps script s).2 = .refused r ∧ (runOps script t).2 = .refused r) ∨
        ∃ s' t', (runOps script s).2 = .next s' ∧ (runOps script t).2 = .next t' ∧
          s'.agreesOn t' (cellsWritten script s))

/-- 43_reset_access.md R158 word for word, for every script without CONSTRUCT, packed or not: with no premise but its own
exclusion of GET_DATA at or above `length` (and the buffer's canonical form, which every step keeps), the results are
equal, and the two final states agree on every register and on `data[0 .. length-1]`. -/
def Obligations.ResetsAgreeOnScriptsWithoutConstruct : Prop :=
  ∀ (script : List Instr) (u v s t : State),
    u.capacity = v.capacity → Memory.wf v.data = true → exec .reset u = .next s → exec .resetLazy v = .next t →
    (∀ b, Instr.construct b ∉ script) → scriptDrawsNothing script s →
    (runOps script s).1 = (runOps script t).1 ∧
      ∃ s' t', (runOps script s).2 = .next s' ∧ (runOps script t).2 = .next t' ∧
        s'.agreesOn t' (fun a => a < s'.length.toNat)

/-- What of 43_reset_access.md R158 a stale read cannot break: a script may read any cell by BYTES, GET_BYTE and GET_DATA, in
the middle of a reception too and at or above `length`. From a full and from a lazy reset of the same capacity every
operation gives the same status, and the runs end alike: refused for the same reason, or in states that agree on every
register and on every cell written since. Only a PACK of a cell not written since the reset is left out, since it carries
that cell into `checksum` (log 15). -/
def Obligations.ResetsAgreeOnStatusesAndRegisters : Prop :=
  ∀ (script : List Instr) (u v s t : State),
    u.capacity = v.capacity → Memory.wf v.data = true → exec .reset u = .next s → exec .resetLazy v = .next t →
    scriptPacksWritten script (fun _ => False) s →
    (runOps script s).1.map (·.st) = (runOps script t).1.map (·.st) ∧
      ((∃ r, (runOps script s).2 = .refused r ∧ (runOps script t).2 = .refused r) ∨
        ∃ s' t', (runOps script s).2 = .next s' ∧ (runOps script t).2 = .next t' ∧
          s'.agreesOn t' (cellsWritten script s))

/-- What of 43_reset_access.md R158 holds of every sequence of operations, with no premise on the sequence: whatever it
reads, packs, constructs or appends, and in whatever order, from a full and from a lazy reset of the same capacity every
operation gives the same status, up to whether a completed frame's checksum matched, and the runs end alike: refused for the
same reason, or in states that agree on every cell written since, on every register but `checksum`, and on `status` up to
that same question (log 15). -/
def Obligations.ResetsAgreeOnEverySequence : Prop :=
  ∀ (script : List Instr) (u v s t : State),
    u.capacity = v.capacity → Memory.wf v.data = true → exec .reset u = .next s → exec .resetLazy v = .next t →
    (runOps script s).1.map (·.st.upToValidation) = (runOps script t).1.map (·.st.upToValidation) ∧
      ((∃ r, (runOps script s).2 = .refused r ∧ (runOps script t).2 = .refused r) ∨
        ∃ s' t', (runOps script s).2 = .next s' ∧ (runOps script t).2 = .next t' ∧
          s'.agreesUpToChecksum t' (cellsWritten script s))
end

