-- ==== Sys2Proof/Laws/Lanes.lean ====
section
/-! SUPPORT. Byte lanes: splitting and joining a halfword lose nothing. -/

namespace Sys2Proof

@[simp] theorem lo8_halfword (h l : Byte) : lo8 (halfword h l) = l := by
  ext i hi
  simp only [lo8, halfword, zext16, BitVec.getElem_setWidth, BitVec.getLsbD_or, BitVec.getLsbD_shiftLeft,
    BitVec.getLsbD_setWidth]
  simp [hi, show i < 16 by omega]

@[simp] theorem hi8_halfword (h l : Byte) : hi8 (halfword h l) = h := by
  ext i hi
  simp only [hi8, halfword, zext16, BitVec.getElem_setWidth, BitVec.getLsbD_ushiftRight, BitVec.getLsbD_or,
    BitVec.getLsbD_shiftLeft, BitVec.getLsbD_setWidth]
  simp [show 8 + i < 16 by omega, show i < 16 by omega, BitVec.getLsbD_eq_getElem hi]

@[simp] theorem halfword_lanes (v : Halfword) : halfword (hi8 v) (lo8 v) = v := by
  ext i hi
  simp only [lo8, hi8, halfword, zext16, BitVec.getElem_or, BitVec.getElem_shiftLeft, BitVec.getElem_setWidth,
    BitVec.getLsbD_setWidth, BitVec.getLsbD_ushiftRight]
  by_cases h : i < 8
  · simp [h, BitVec.getLsbD_eq_getElem hi]
  · simp [h, show 8 + (i - 8) = i by omega, show i - 8 < 8 by omega, BitVec.getLsbD_eq_getElem hi]

@[simp] theorem lo8_zext16 (b : Byte) : lo8 (zext16 b) = b := by
  ext i hi
  simp [lo8, zext16]

@[simp] theorem lo8_withLo8 (v : Halfword) (b : Byte) : lo8 (withLo8 v b) = b := lo8_halfword _ _

@[simp] theorem hi8_withLo8 (v : Halfword) (b : Byte) : hi8 (withLo8 v b) = hi8 v := hi8_halfword _ _

@[simp] theorem lo8_withHi8 (v : Halfword) (b : Byte) : lo8 (withHi8 v b) = lo8 v := lo8_halfword _ _

@[simp] theorem hi8_withHi8 (v : Halfword) (b : Byte) : hi8 (withHi8 v b) = b := hi8_halfword _ _

/-- Two halfwords with the same lanes are equal. -/
theorem halfword_ext {v w : Halfword} (hl : lo8 v = lo8 w) (hh : hi8 v = hi8 w) : v = w := by
  rw [← halfword_lanes v, ← halfword_lanes w, hl, hh]

/-- `{hi, lo} = lo + 256 * hi` (30_encoding.md R72). -/
theorem halfword_toNat (h l : Byte) : (halfword h l).toNat = l.toNat + 256 * h.toNat := by
  have hl := l.isLt
  have hh := h.isLt
  have e : (halfword h l) = h.zeroExtend 16 * 256#16 + l.zeroExtend 16 := by
    apply halfword_ext <;> simp only [lo8_halfword, hi8_halfword] <;> apply BitVec.eq_of_toNat_eq
    · simp [lo8]; omega
    · simp [hi8, Nat.shiftRight_eq_div_pow]; omega
  rw [e]
  simp
  omega

end Sys2Proof
end

