-- ==== Sys2Proof/Laws/Memory.lean ====
section
/-! SUPPORT. The payload buffer: read after write, and every write keeps the canonical form. -/

namespace Sys2Proof.Machine

theorem Memory.read_nil (a : Nat) : Memory.read [] a = absentByte := rfl

/-- Below its first index a canonical list holds nothing. -/
theorem Memory.read_below {m : Memory} {lo a : Nat} (h : Memory.wfFrom lo m = true) (ha : a < lo) :
    Memory.read m a = absentByte := by
  induction m generalizing lo with
  | nil => rfl
  | cons c m ih =>
    obtain ⟨k, b⟩ := c
    simp only [Memory.wfFrom, Bool.and_eq_true, decide_eq_true_eq] at h
    rw [Memory.read, if_neg (by omega)]
    exact ih h.2 (by omega)

theorem Memory.wfFrom_mono {m : Memory} {lo lo' : Nat} (h : Memory.wfFrom lo m = true) (hl : lo' ≤ lo) :
    Memory.wfFrom lo' m = true := by
  cases m with
  | nil => rfl
  | cons c m =>
    obtain ⟨k, b⟩ := c
    simp only [Memory.wfFrom, Bool.and_eq_true, decide_eq_true_eq] at h ⊢
    exact ⟨⟨by omega, h.1.2⟩, h.2⟩

/-- A write keeps the canonical form. -/
theorem Memory.wfFrom_write {m : Memory} {lo a : Nat} (v : Byte) (h : Memory.wfFrom lo m = true) (ha : lo ≤ a) :
    Memory.wfFrom lo (Memory.write m a v) = true := by
  induction m generalizing lo with
  | nil =>
    rw [Memory.write]
    split
    · rfl
    · simp_all [Memory.wfFrom]
  | cons c m ih =>
    obtain ⟨k, b⟩ := c
    have h' := h
    simp only [Memory.wfFrom, Bool.and_eq_true, decide_eq_true_eq] at h'
    obtain ⟨⟨h1, h2⟩, h3⟩ := h'
    rw [Memory.write]
    split
    · split
      · exact h
      · simp only [Memory.wfFrom, Bool.and_eq_true, decide_eq_true_eq]
        exact ⟨⟨ha, by assumption⟩, ⟨by omega, h2⟩, h3⟩
    · split
      · rename_i hak
        split
        · exact Memory.wfFrom_mono h3 (by omega)
        · simp only [Memory.wfFrom, Bool.and_eq_true, decide_eq_true_eq]
          exact ⟨⟨ha, by assumption⟩, hak ▸ h3⟩
      · simp only [Memory.wfFrom, Bool.and_eq_true, decide_eq_true_eq]
        exact ⟨⟨h1, h2⟩, ih h3 (by omega)⟩

theorem Memory.wf_write {m : Memory} (a : Nat) (v : Byte) (h : Memory.wf m = true) :
    Memory.wf (Memory.write m a v) = true :=
  Memory.wfFrom_write v h (Nat.zero_le a)

/-- A write below the capacity lists no cell at or above it. -/
theorem Memory.within_write {m : Memory} {n a : Nat} (v : Byte) (h : Memory.within m n = true) (ha : a < n) :
    Memory.within (Memory.write m a v) n = true := by
  induction m with
  | nil =>
    rw [Memory.write]
    split
    · rfl
    · simpa [Memory.within] using ha
  | cons c m ih =>
    obtain ⟨k, b⟩ := c
    obtain ⟨hk, hm⟩ : k < n ∧ Memory.within m n = true := by simpa [Memory.within] using h
    rw [Memory.write]
    split
    · split
      · exact h
      · simpa [Memory.within, ha, hk] using hm
    · split
      · split
        · exact hm
        · simpa [Memory.within, ha] using hm
      · simpa [Memory.within, hk] using ih hm

/-- Reading an index just written, in a canonical list. -/
theorem Memory.read_write_same {m : Memory} {lo : Nat} (a : Nat) (v : Byte) (h : Memory.wfFrom lo m = true) :
    Memory.read (Memory.write m a v) a = v := by
  induction m generalizing lo with
  | nil =>
    rw [Memory.write]
    split
    · rename_i hv
      rw [hv, Memory.read_nil]
    · simp [Memory.read]
  | cons c m ih =>
    obtain ⟨k, b⟩ := c
    have h' := h
    simp only [Memory.wfFrom, Bool.and_eq_true, decide_eq_true_eq] at h'
    rw [Memory.write]
    split
    · split
      · rename_i hv
        rw [Memory.read, if_neg (by omega), Memory.read_below h'.2 (by omega), hv]
      · simp [Memory.read]
    · split
      · split
        · rename_i hak hv
          rw [Memory.read_below h'.2 (by omega), hv]
        · simp [Memory.read]
      · rw [Memory.read, if_neg (by omega), ih h'.2]

/-- A write leaves every other index alone. -/
theorem Memory.read_write_other (m : Memory) {a a' : Nat} (v : Byte) (hne : a' ≠ a) :
    Memory.read (Memory.write m a v) a' = Memory.read m a' := by
  induction m with
  | nil =>
    rw [Memory.write]
    split
    · rfl
    · simp [Memory.read, Ne.symm hne]
  | cons c m ih =>
    obtain ⟨k, b⟩ := c
    rw [Memory.write]
    split
    · split
      · rfl
      · simp [Memory.read, Ne.symm hne]
    · split
      · rename_i hak
        split
        · rw [Memory.read, if_neg (by omega)]
        · simp [Memory.read, Ne.symm hne, hak ▸ Ne.symm hne]
      · simp only [Memory.read, ih]

end Sys2Proof.Machine
end

