-- ==== Sys2Proof/Laws/State.lean ====
section
/-! SUPPORT. One lemma per field per update of State, each true by unfolding. -/

namespace Sys2Proof.Machine

variable (s : State)

@[simp] theorem State.answer_capacity (st : Status) (v : Halfword) (r : Option (List Byte)) : (s.answer st v r).capacity = s.capacity := rfl
@[simp] theorem State.answer_header (st : Status) (v : Halfword) (r : Option (List Byte)) : (s.answer st v r).header = s.header := rfl
@[simp] theorem State.answer_checksum (st : Status) (v : Halfword) (r : Option (List Byte)) : (s.answer st v r).checksum = s.checksum := rfl
@[simp] theorem State.answer_request (st : Status) (v : Halfword) (r : Option (List Byte)) : (s.answer st v r).request = s.request := rfl
@[simp] theorem State.answer_response (st : Status) (v : Halfword) (r : Option (List Byte)) : (s.answer st v r).response = s.response := rfl
@[simp] theorem State.answer_length (st : Status) (v : Halfword) (r : Option (List Byte)) : (s.answer st v r).length = s.length := rfl
@[simp] theorem State.answer_data (st : Status) (v : Halfword) (r : Option (List Byte)) : (s.answer st v r).data = s.data := rfl
@[simp] theorem State.answer_internalCounter (st : Status) (v : Halfword) (r : Option (List Byte)) : (s.answer st v r).internalCounter = s.internalCounter := rfl
@[simp] theorem State.answer_dataLengthCounter (st : Status) (v : Halfword) (r : Option (List Byte)) : (s.answer st v r).dataLengthCounter = s.dataLengthCounter := rfl
@[simp] theorem State.answer_status (st : Status) (v : Halfword) (r : Option (List Byte)) : (s.answer st v r).status = s.status := rfl
@[simp] theorem State.answer_commands (st : Status) (v : Halfword) (r : Option (List Byte)) : (s.answer st v r).commands = s.commands := rfl
@[simp] theorem State.answer_result (st : Status) (v : Halfword) (r : Option (List Byte)) : (s.answer st v r).result = some ⟨st, v, r⟩ := rfl
@[simp] theorem State.answer_draws (st : Status) (v : Halfword) (r : Option (List Byte)) : (s.answer st v r).draws = s.draws := rfl

@[simp] theorem State.withStatus_capacity (st : Status) : (s.withStatus st).capacity = s.capacity := rfl
@[simp] theorem State.withStatus_header (st : Status) : (s.withStatus st).header = s.header := rfl
@[simp] theorem State.withStatus_checksum (st : Status) : (s.withStatus st).checksum = s.checksum := rfl
@[simp] theorem State.withStatus_request (st : Status) : (s.withStatus st).request = s.request := rfl
@[simp] theorem State.withStatus_response (st : Status) : (s.withStatus st).response = s.response := rfl
@[simp] theorem State.withStatus_length (st : Status) : (s.withStatus st).length = s.length := rfl
@[simp] theorem State.withStatus_data (st : Status) : (s.withStatus st).data = s.data := rfl
@[simp] theorem State.withStatus_internalCounter (st : Status) : (s.withStatus st).internalCounter = s.internalCounter := rfl
@[simp] theorem State.withStatus_dataLengthCounter (st : Status) : (s.withStatus st).dataLengthCounter = s.dataLengthCounter := rfl
@[simp] theorem State.withStatus_status (st : Status) : (s.withStatus st).status = st := rfl
@[simp] theorem State.withStatus_commands (st : Status) : (s.withStatus st).commands = s.commands := rfl
@[simp] theorem State.withStatus_result (st : Status) : (s.withStatus st).result = s.result := rfl
@[simp] theorem State.withStatus_draws (st : Status) : (s.withStatus st).draws = s.draws := rfl

@[simp] theorem State.clearFraming_capacity : (s.clearFraming).capacity = s.capacity := rfl
@[simp] theorem State.clearFraming_header : (s.clearFraming).header = 0x0000#16 := rfl
@[simp] theorem State.clearFraming_checksum : (s.clearFraming).checksum = 0x0000#16 := rfl
@[simp] theorem State.clearFraming_request : (s.clearFraming).request = 0x0000#16 := rfl
@[simp] theorem State.clearFraming_response : (s.clearFraming).response = 0x0000#16 := rfl
@[simp] theorem State.clearFraming_length : (s.clearFraming).length = 0x0000#16 := rfl
@[simp] theorem State.clearFraming_data : (s.clearFraming).data = s.data := rfl
@[simp] theorem State.clearFraming_internalCounter : (s.clearFraming).internalCounter = 0 := rfl
@[simp] theorem State.clearFraming_dataLengthCounter : (s.clearFraming).dataLengthCounter = 0x0000#16 := rfl
@[simp] theorem State.clearFraming_status : (s.clearFraming).status = .ok := rfl
@[simp] theorem State.clearFraming_commands : (s.clearFraming).commands = s.commands := rfl
@[simp] theorem State.clearFraming_result : (s.clearFraming).result = s.result := rfl
@[simp] theorem State.clearFraming_draws : (s.clearFraming).draws = s.draws := rfl

@[simp] theorem State.clearData_capacity : (s.clearData).capacity = s.capacity := rfl
@[simp] theorem State.clearData_header : (s.clearData).header = s.header := rfl
@[simp] theorem State.clearData_checksum : (s.clearData).checksum = s.checksum := rfl
@[simp] theorem State.clearData_request : (s.clearData).request = s.request := rfl
@[simp] theorem State.clearData_response : (s.clearData).response = s.response := rfl
@[simp] theorem State.clearData_length : (s.clearData).length = s.length := rfl
@[simp] theorem State.clearData_data : (s.clearData).data = [] := rfl
@[simp] theorem State.clearData_internalCounter : (s.clearData).internalCounter = s.internalCounter := rfl
@[simp] theorem State.clearData_dataLengthCounter : (s.clearData).dataLengthCounter = s.dataLengthCounter := rfl
@[simp] theorem State.clearData_status : (s.clearData).status = s.status := rfl
@[simp] theorem State.clearData_commands : (s.clearData).commands = s.commands := rfl
@[simp] theorem State.clearData_result : (s.clearData).result = s.result := rfl
@[simp] theorem State.clearData_draws : (s.clearData).draws = s.draws := rfl

@[simp] theorem State.withData_capacity (m : Memory) : (s.withData m).capacity = s.capacity := rfl
@[simp] theorem State.withData_header (m : Memory) : (s.withData m).header = s.header := rfl
@[simp] theorem State.withData_checksum (m : Memory) : (s.withData m).checksum = s.checksum := rfl
@[simp] theorem State.withData_request (m : Memory) : (s.withData m).request = s.request := rfl
@[simp] theorem State.withData_response (m : Memory) : (s.withData m).response = s.response := rfl
@[simp] theorem State.withData_length (m : Memory) : (s.withData m).length = s.length := rfl
@[simp] theorem State.withData_data (m : Memory) : (s.withData m).data = m := rfl
@[simp] theorem State.withData_internalCounter (m : Memory) : (s.withData m).internalCounter = s.internalCounter := rfl
@[simp] theorem State.withData_dataLengthCounter (m : Memory) : (s.withData m).dataLengthCounter = s.dataLengthCounter := rfl
@[simp] theorem State.withData_status (m : Memory) : (s.withData m).status = s.status := rfl
@[simp] theorem State.withData_commands (m : Memory) : (s.withData m).commands = s.commands := rfl
@[simp] theorem State.withData_result (m : Memory) : (s.withData m).result = s.result := rfl
@[simp] theorem State.withData_draws (m : Memory) : (s.withData m).draws = s.draws := rfl

@[simp] theorem State.drawn_capacity : (s.drawn).capacity = s.capacity := rfl
@[simp] theorem State.drawn_header : (s.drawn).header = s.header := rfl
@[simp] theorem State.drawn_checksum : (s.drawn).checksum = s.checksum := rfl
@[simp] theorem State.drawn_request : (s.drawn).request = s.request := rfl
@[simp] theorem State.drawn_response : (s.drawn).response = s.response := rfl
@[simp] theorem State.drawn_length : (s.drawn).length = s.length := rfl
@[simp] theorem State.drawn_data : (s.drawn).data = s.data := rfl
@[simp] theorem State.drawn_internalCounter : (s.drawn).internalCounter = s.internalCounter := rfl
@[simp] theorem State.drawn_dataLengthCounter : (s.drawn).dataLengthCounter = s.dataLengthCounter := rfl
@[simp] theorem State.drawn_status : (s.drawn).status = s.status := rfl
@[simp] theorem State.drawn_commands : (s.drawn).commands = s.commands := rfl
@[simp] theorem State.drawn_result : (s.drawn).result = s.result := rfl
@[simp] theorem State.drawn_draws : (s.drawn).draws = s.draws + 1 := rfl

@[simp] theorem State.issue_capacity (cs : List Command) : (s.issue cs).capacity = s.capacity := rfl
@[simp] theorem State.issue_header (cs : List Command) : (s.issue cs).header = s.header := rfl
@[simp] theorem State.issue_checksum (cs : List Command) : (s.issue cs).checksum = s.checksum := rfl
@[simp] theorem State.issue_request (cs : List Command) : (s.issue cs).request = s.request := rfl
@[simp] theorem State.issue_response (cs : List Command) : (s.issue cs).response = s.response := rfl
@[simp] theorem State.issue_length (cs : List Command) : (s.issue cs).length = s.length := rfl
@[simp] theorem State.issue_data (cs : List Command) : (s.issue cs).data = s.data := rfl
@[simp] theorem State.issue_internalCounter (cs : List Command) : (s.issue cs).internalCounter = s.internalCounter := rfl
@[simp] theorem State.issue_dataLengthCounter (cs : List Command) : (s.issue cs).dataLengthCounter = s.dataLengthCounter := rfl
@[simp] theorem State.issue_status (cs : List Command) : (s.issue cs).status = s.status := rfl
@[simp] theorem State.issue_commands (cs : List Command) : (s.issue cs).commands = s.commands ++ cs := rfl
@[simp] theorem State.issue_result (cs : List Command) : (s.issue cs).result = s.result := rfl
@[simp] theorem State.issue_draws (cs : List Command) : (s.issue cs).draws = s.draws := rfl

@[simp] theorem State.withRequest_capacity (v : Halfword) : (s.withRequest v).capacity = s.capacity := rfl
@[simp] theorem State.withRequest_header (v : Halfword) : (s.withRequest v).header = s.header := rfl
@[simp] theorem State.withRequest_checksum (v : Halfword) : (s.withRequest v).checksum = s.checksum := rfl
@[simp] theorem State.withRequest_request (v : Halfword) : (s.withRequest v).request = v := rfl
@[simp] theorem State.withRequest_response (v : Halfword) : (s.withRequest v).response = s.response := rfl
@[simp] theorem State.withRequest_length (v : Halfword) : (s.withRequest v).length = s.length := rfl
@[simp] theorem State.withRequest_data (v : Halfword) : (s.withRequest v).data = s.data := rfl
@[simp] theorem State.withRequest_internalCounter (v : Halfword) : (s.withRequest v).internalCounter = s.internalCounter := rfl
@[simp] theorem State.withRequest_dataLengthCounter (v : Halfword) : (s.withRequest v).dataLengthCounter = s.dataLengthCounter := rfl
@[simp] theorem State.withRequest_status (v : Halfword) : (s.withRequest v).status = s.status := rfl
@[simp] theorem State.withRequest_commands (v : Halfword) : (s.withRequest v).commands = s.commands := rfl
@[simp] theorem State.withRequest_result (v : Halfword) : (s.withRequest v).result = s.result := rfl
@[simp] theorem State.withRequest_draws (v : Halfword) : (s.withRequest v).draws = s.draws := rfl

@[simp] theorem State.withResponse_capacity (v : Halfword) : (s.withResponse v).capacity = s.capacity := rfl
@[simp] theorem State.withResponse_header (v : Halfword) : (s.withResponse v).header = s.header := rfl
@[simp] theorem State.withResponse_checksum (v : Halfword) : (s.withResponse v).checksum = s.checksum := rfl
@[simp] theorem State.withResponse_request (v : Halfword) : (s.withResponse v).request = s.request := rfl
@[simp] theorem State.withResponse_response (v : Halfword) : (s.withResponse v).response = v := rfl
@[simp] theorem State.withResponse_length (v : Halfword) : (s.withResponse v).length = s.length := rfl
@[simp] theorem State.withResponse_data (v : Halfword) : (s.withResponse v).data = s.data := rfl
@[simp] theorem State.withResponse_internalCounter (v : Halfword) : (s.withResponse v).internalCounter = s.internalCounter := rfl
@[simp] theorem State.withResponse_dataLengthCounter (v : Halfword) : (s.withResponse v).dataLengthCounter = s.dataLengthCounter := rfl
@[simp] theorem State.withResponse_status (v : Halfword) : (s.withResponse v).status = s.status := rfl
@[simp] theorem State.withResponse_commands (v : Halfword) : (s.withResponse v).commands = s.commands := rfl
@[simp] theorem State.withResponse_result (v : Halfword) : (s.withResponse v).result = s.result := rfl
@[simp] theorem State.withResponse_draws (v : Halfword) : (s.withResponse v).draws = s.draws := rfl

@[simp] theorem State.withLength_capacity (v : Halfword) : (s.withLength v).capacity = s.capacity := rfl
@[simp] theorem State.withLength_header (v : Halfword) : (s.withLength v).header = s.header := rfl
@[simp] theorem State.withLength_checksum (v : Halfword) : (s.withLength v).checksum = s.checksum := rfl
@[simp] theorem State.withLength_request (v : Halfword) : (s.withLength v).request = s.request := rfl
@[simp] theorem State.withLength_response (v : Halfword) : (s.withLength v).response = s.response := rfl
@[simp] theorem State.withLength_length (v : Halfword) : (s.withLength v).length = v := rfl
@[simp] theorem State.withLength_data (v : Halfword) : (s.withLength v).data = s.data := rfl
@[simp] theorem State.withLength_internalCounter (v : Halfword) : (s.withLength v).internalCounter = s.internalCounter := rfl
@[simp] theorem State.withLength_dataLengthCounter (v : Halfword) : (s.withLength v).dataLengthCounter = s.dataLengthCounter := rfl
@[simp] theorem State.withLength_status (v : Halfword) : (s.withLength v).status = s.status := rfl
@[simp] theorem State.withLength_commands (v : Halfword) : (s.withLength v).commands = s.commands := rfl
@[simp] theorem State.withLength_result (v : Halfword) : (s.withLength v).result = s.result := rfl
@[simp] theorem State.withLength_draws (v : Halfword) : (s.withLength v).draws = s.draws := rfl

@[simp] theorem State.withHeader_capacity (v : Halfword) : (s.withHeader v).capacity = s.capacity := rfl
@[simp] theorem State.withHeader_header (v : Halfword) : (s.withHeader v).header = v := rfl
@[simp] theorem State.withHeader_checksum (v : Halfword) : (s.withHeader v).checksum = s.checksum := rfl
@[simp] theorem State.withHeader_request (v : Halfword) : (s.withHeader v).request = s.request := rfl
@[simp] theorem State.withHeader_response (v : Halfword) : (s.withHeader v).response = s.response := rfl
@[simp] theorem State.withHeader_length (v : Halfword) : (s.withHeader v).length = s.length := rfl
@[simp] theorem State.withHeader_data (v : Halfword) : (s.withHeader v).data = s.data := rfl
@[simp] theorem State.withHeader_internalCounter (v : Halfword) : (s.withHeader v).internalCounter = s.internalCounter := rfl
@[simp] theorem State.withHeader_dataLengthCounter (v : Halfword) : (s.withHeader v).dataLengthCounter = s.dataLengthCounter := rfl
@[simp] theorem State.withHeader_status (v : Halfword) : (s.withHeader v).status = s.status := rfl
@[simp] theorem State.withHeader_commands (v : Halfword) : (s.withHeader v).commands = s.commands := rfl
@[simp] theorem State.withHeader_result (v : Halfword) : (s.withHeader v).result = s.result := rfl
@[simp] theorem State.withHeader_draws (v : Halfword) : (s.withHeader v).draws = s.draws := rfl

@[simp] theorem State.withChecksum_capacity (v : Halfword) : (s.withChecksum v).capacity = s.capacity := rfl
@[simp] theorem State.withChecksum_header (v : Halfword) : (s.withChecksum v).header = s.header := rfl
@[simp] theorem State.withChecksum_checksum (v : Halfword) : (s.withChecksum v).checksum = v := rfl
@[simp] theorem State.withChecksum_request (v : Halfword) : (s.withChecksum v).request = s.request := rfl
@[simp] theorem State.withChecksum_response (v : Halfword) : (s.withChecksum v).response = s.response := rfl
@[simp] theorem State.withChecksum_length (v : Halfword) : (s.withChecksum v).length = s.length := rfl
@[simp] theorem State.withChecksum_data (v : Halfword) : (s.withChecksum v).data = s.data := rfl
@[simp] theorem State.withChecksum_internalCounter (v : Halfword) : (s.withChecksum v).internalCounter = s.internalCounter := rfl
@[simp] theorem State.withChecksum_dataLengthCounter (v : Halfword) : (s.withChecksum v).dataLengthCounter = s.dataLengthCounter := rfl
@[simp] theorem State.withChecksum_status (v : Halfword) : (s.withChecksum v).status = s.status := rfl
@[simp] theorem State.withChecksum_commands (v : Halfword) : (s.withChecksum v).commands = s.commands := rfl
@[simp] theorem State.withChecksum_result (v : Halfword) : (s.withChecksum v).result = s.result := rfl
@[simp] theorem State.withChecksum_draws (v : Halfword) : (s.withChecksum v).draws = s.draws := rfl

@[simp] theorem State.withCounter_capacity (n : Nat) : (s.withCounter n).capacity = s.capacity := rfl
@[simp] theorem State.withCounter_header (n : Nat) : (s.withCounter n).header = s.header := rfl
@[simp] theorem State.withCounter_checksum (n : Nat) : (s.withCounter n).checksum = s.checksum := rfl
@[simp] theorem State.withCounter_request (n : Nat) : (s.withCounter n).request = s.request := rfl
@[simp] theorem State.withCounter_response (n : Nat) : (s.withCounter n).response = s.response := rfl
@[simp] theorem State.withCounter_length (n : Nat) : (s.withCounter n).length = s.length := rfl
@[simp] theorem State.withCounter_data (n : Nat) : (s.withCounter n).data = s.data := rfl
@[simp] theorem State.withCounter_internalCounter (n : Nat) : (s.withCounter n).internalCounter = n := rfl
@[simp] theorem State.withCounter_dataLengthCounter (n : Nat) : (s.withCounter n).dataLengthCounter = s.dataLengthCounter := rfl
@[simp] theorem State.withCounter_status (n : Nat) : (s.withCounter n).status = s.status := rfl
@[simp] theorem State.withCounter_commands (n : Nat) : (s.withCounter n).commands = s.commands := rfl
@[simp] theorem State.withCounter_result (n : Nat) : (s.withCounter n).result = s.result := rfl
@[simp] theorem State.withCounter_draws (n : Nat) : (s.withCounter n).draws = s.draws := rfl

@[simp] theorem State.withDataCounter_capacity (v : Halfword) : (s.withDataCounter v).capacity = s.capacity := rfl
@[simp] theorem State.withDataCounter_header (v : Halfword) : (s.withDataCounter v).header = s.header := rfl
@[simp] theorem State.withDataCounter_checksum (v : Halfword) : (s.withDataCounter v).checksum = s.checksum := rfl
@[simp] theorem State.withDataCounter_request (v : Halfword) : (s.withDataCounter v).request = s.request := rfl
@[simp] theorem State.withDataCounter_response (v : Halfword) : (s.withDataCounter v).response = s.response := rfl
@[simp] theorem State.withDataCounter_length (v : Halfword) : (s.withDataCounter v).length = s.length := rfl
@[simp] theorem State.withDataCounter_data (v : Halfword) : (s.withDataCounter v).data = s.data := rfl
@[simp] theorem State.withDataCounter_internalCounter (v : Halfword) : (s.withDataCounter v).internalCounter = s.internalCounter := rfl
@[simp] theorem State.withDataCounter_dataLengthCounter (v : Halfword) : (s.withDataCounter v).dataLengthCounter = v := rfl
@[simp] theorem State.withDataCounter_status (v : Halfword) : (s.withDataCounter v).status = s.status := rfl
@[simp] theorem State.withDataCounter_commands (v : Halfword) : (s.withDataCounter v).commands = s.commands := rfl
@[simp] theorem State.withDataCounter_result (v : Halfword) : (s.withDataCounter v).result = s.result := rfl
@[simp] theorem State.withDataCounter_draws (v : Halfword) : (s.withDataCounter v).draws = s.draws := rfl

@[simp] theorem State.powerOn_capacity (cap : Capacity) : (State.powerOn cap).capacity = cap := rfl
@[simp] theorem State.powerOn_header (cap : Capacity) : (State.powerOn cap).header = 0x0000#16 := rfl
@[simp] theorem State.powerOn_checksum (cap : Capacity) : (State.powerOn cap).checksum = 0x0000#16 := rfl
@[simp] theorem State.powerOn_request (cap : Capacity) : (State.powerOn cap).request = 0x0000#16 := rfl
@[simp] theorem State.powerOn_response (cap : Capacity) : (State.powerOn cap).response = 0x0000#16 := rfl
@[simp] theorem State.powerOn_length (cap : Capacity) : (State.powerOn cap).length = 0x0000#16 := rfl
@[simp] theorem State.powerOn_data (cap : Capacity) : (State.powerOn cap).data = [] := rfl
@[simp] theorem State.powerOn_internalCounter (cap : Capacity) : (State.powerOn cap).internalCounter = 0 := rfl
@[simp] theorem State.powerOn_dataLengthCounter (cap : Capacity) : (State.powerOn cap).dataLengthCounter = 0x0000#16 := rfl
@[simp] theorem State.powerOn_status (cap : Capacity) : (State.powerOn cap).status = .ok := rfl
@[simp] theorem State.powerOn_commands (cap : Capacity) : (State.powerOn cap).commands = [] := rfl
@[simp] theorem State.powerOn_result (cap : Capacity) : (State.powerOn cap).result = none := rfl
@[simp] theorem State.powerOn_draws (cap : Capacity) : (State.powerOn cap).draws = 0 := rfl

end Sys2Proof.Machine
end

