-- ==== Sys2Proof/Laws/Ops.lean ====
section
/-! SUPPORT. What each shared operation can do, said once (20_memory.md R51, R56; 60_exceptions.md R181, R190). -/

namespace Sys2Proof.Machine

/-! ### Answers -/

@[simp] theorem returnOk_eq (v : Halfword) (s : State) : returnOk v s = .next (s.answer .ok v none) := rfl

@[simp] theorem returnStatus_eq (st : Status) (v : Halfword) (s : State) :
    returnStatus st v s = .next ((s.withStatus st).answer st v none) := rfl

@[simp] theorem raise_eq (st : Status) (s : State) :
    raise st s = .next ((s.withStatus st).answer st 0x0000#16 none) := rfl

@[simp] theorem orRefuse_some {α : Type} (x : α) (f : α → Answer) : orRefuse (some x) f = f x := rfl

@[simp] theorem orRefuse_none {α : Type} (f : α → Answer) :
    orRefuse none f = .refused .dataIndexOutOfRange := rfl

@[simp] theorem andThen_next (s : State) (f : State → Answer) : andThen (.next s) f = f s := rfl

/-- An operation that goes on past a buffer access had a byte to go on with. -/
theorem orRefuse_next_iff {α : Type} {x : Option α} {f : α → Answer} {t : State} :
    orRefuse x f = .next t ↔ ∃ y, x = some y ∧ f y = .next t := by
  cases x <;> simp

/-- A refusal is the refused access, or comes from what follows it. -/
theorem orRefuse_refused_iff {α : Type} {x : Option α} {f : α → Answer} {r : Refusal} :
    orRefuse x f = .refused r ↔ (x = none ∧ r = .dataIndexOutOfRange) ∨ ∃ y, x = some y ∧ f y = .refused r := by
  cases x with
  | none => simp [eq_comm]
  | some y => simp

/-- What an outcome leaves when it is recorded: the status register and the result output take it. -/
def State.settled (s : State) (st : Status) : State := (s.withStatus st).answer st 0x0000#16 none

@[simp] theorem State.settled_capacity (s : State) (st : Status) : (s.settled st).capacity = s.capacity := rfl
@[simp] theorem State.settled_header (s : State) (st : Status) : (s.settled st).header = s.header := rfl
@[simp] theorem State.settled_checksum (s : State) (st : Status) : (s.settled st).checksum = s.checksum := rfl
@[simp] theorem State.settled_request (s : State) (st : Status) : (s.settled st).request = s.request := rfl
@[simp] theorem State.settled_response (s : State) (st : Status) : (s.settled st).response = s.response := rfl
@[simp] theorem State.settled_length (s : State) (st : Status) : (s.settled st).length = s.length := rfl
@[simp] theorem State.settled_data (s : State) (st : Status) : (s.settled st).data = s.data := rfl
@[simp] theorem State.settled_internalCounter (s : State) (st : Status) : (s.settled st).internalCounter = s.internalCounter := rfl
@[simp] theorem State.settled_dataLengthCounter (s : State) (st : Status) : (s.settled st).dataLengthCounter = s.dataLengthCounter := rfl
@[simp] theorem State.settled_commands (s : State) (st : Status) : (s.settled st).commands = s.commands := rfl
@[simp] theorem State.settled_draws (s : State) (st : Status) : (s.settled st).draws = s.draws := rfl
@[simp] theorem State.settled_status (s : State) (st : Status) : (s.settled st).status = st := rfl
@[simp] theorem State.settled_result (s : State) (st : Status) :
    (s.settled st).result = resultOf st 0x0000#16 := rfl

/-! ### MemRead and MemWrite -/

theorem memRead_of_lt {s : State} {a : Nat} (h : a < s.capacity.val) :
    memRead s a = some (Memory.read s.data a) := if_pos h

theorem memRead_of_not_lt {s : State} {a : Nat} (h : ¬a < s.capacity.val) : memRead s a = none := if_neg h

/-- MemRead looks at the capacity and the buffer only. -/
theorem memRead_congr {s t : State} (hc : t.capacity = s.capacity) (hd : t.data = s.data) (a : Nat) :
    memRead t a = memRead s a := by
  simp only [memRead, hc, hd]

theorem memWrite_of_lt {s : State} {a : Nat} (v : Byte) (h : a < s.capacity.val) :
    memWrite s a v = some (s.withData (Memory.write s.data a v)) := if_pos h

theorem memWrite_of_not_lt {s : State} {a : Nat} (v : Byte) (h : ¬a < s.capacity.val) : memWrite s a v = none :=
  if_neg h

/-! ### Runs of cells -/

theorem readCells_eq {s : State} {a n : Nat} (h : a + n ≤ s.capacity.val) :
    readCells s a n = some ((List.range' a n).map (Memory.read s.data)) := by
  induction n generalizing a with
  | zero => rfl
  | succ n ih =>
    rw [readCells, memRead_of_lt (by omega)]
    simp [ih (a := a + 1) (by omega), List.range'_succ]

theorem readCells_none {s : State} {a n : Nat} (h : s.capacity.val < a + n) (hn : 0 < n) :
    readCells s a n = none := by
  induction n generalizing a with
  | zero => omega
  | succ n ih =>
    rw [readCells]
    by_cases ha : a < s.capacity.val
    · rw [memRead_of_lt ha]
      simp [ih (a := a + 1) (by omega) (by omega)]
    · rw [memRead_of_not_lt ha]

/-- Reading a run looks at the cells of the run only. -/
theorem readCells_congr {s t : State} {a n : Nat}
    (h : ∀ i, a ≤ i → i < a + n → memRead t i = memRead s i) : readCells t a n = readCells s a n := by
  induction n generalizing a with
  | zero => rfl
  | succ n ih =>
    rw [readCells, readCells, h a (by omega) (by omega), ih fun i h1 h2 => h i (by omega) (by omega)]

/-- Writing a run inside the buffer: only `data` changes; the run holds the bytes written, every other cell is as before;
the canonical form is kept, and no cell outside the buffer is listed. -/
theorem writeCells_spec {s : State} {a : Nat} {q : List Byte} (h : a + q.length ≤ s.capacity.val) :
    ∃ m, writeCells s a q = some (s.withData m) ∧
      (Memory.wf s.data = true → Memory.wf m = true) ∧
      (Memory.within s.data s.capacity.val = true → Memory.within m s.capacity.val = true) ∧
      (∀ i, i < a ∨ a + q.length ≤ i → Memory.read m i = Memory.read s.data i) ∧
      (Memory.wf s.data = true → ∀ k (hk : k < q.length), Memory.read m (a + k) = q[k]) := by
  induction q generalizing s a with
  | nil => exact ⟨s.data, rfl, id, id, fun _ _ => rfl, fun _ k hk => absurd hk (Nat.not_lt_zero k)⟩
  | cons v q ih =>
    simp only [List.length_cons] at h
    have ha : a < s.capacity.val := by omega
    have hfit : a + 1 + q.length ≤ s.capacity.val := by omega
    obtain ⟨m, e, hwf, hin, hout, hval⟩ :=
      ih (s := s.withData (Memory.write s.data a v)) (a := a + 1) hfit
    refine ⟨m, ?_, fun w => hwf (Memory.wf_write a v w), fun w => hin (Memory.within_write v w ha), ?_, ?_⟩
    · rw [writeCells, memWrite_of_lt v ha]
      exact e
    · intro i hi
      simp only [List.length_cons] at hi
      rw [hout i (by omega)]
      exact Memory.read_write_other s.data v (by omega)
    · intro w k hk
      cases k with
      | zero =>
        rw [hout (a + 0) (by omega)]
        exact Memory.read_write_same a v w
      | succ k =>
        have := hval (Memory.wf_write a v w) k (by simpa using hk)
        rw [show a + (k + 1) = a + 1 + k by omega, this]
        rfl

/-- Writing a run changes the buffer only. -/
theorem writeCells_data_only {s t : State} {a : Nat} {q : List Byte} (h : writeCells s a q = some t) :
    t = s.withData t.data := by
  induction q generalizing s a with
  | nil =>
    cases h
    rfl
  | cons v q ih =>
    rw [writeCells] at h
    by_cases ha : a < s.capacity.val
    · rw [memWrite_of_lt v ha] at h
      exact ih (s := s.withData (Memory.write s.data a v)) h
    · rw [memWrite_of_not_lt v ha] at h
      cases h

/-- Writing a run looks at the capacity and the buffer only. -/
theorem writeCells_congr {s s' t : State} {a : Nat} {q : List Byte} (h : writeCells s a q = some t)
    (hc : s'.capacity = s.capacity) (hd : s'.data = s.data) : writeCells s' a q = some (s'.withData t.data) := by
  induction q generalizing s s' a with
  | nil =>
    cases h
    rw [← hd]
    rfl
  | cons v q ih =>
    rw [writeCells] at h ⊢
    by_cases ha : a < s.capacity.val
    · rw [memWrite_of_lt v ha] at h
      rw [memWrite_of_lt v (hc ▸ ha)]
      exact ih (s := s.withData (Memory.write s.data a v)) (s' := s'.withData (Memory.write s'.data a v)) h hc
        (by simp [hd])
    · rw [memWrite_of_not_lt v ha] at h
      cases h

/-- Two runs, one after the other, are one run. -/
theorem writeCells_append {s t : State} {a : Nat} {q : List Byte} (r : List Byte) (h : writeCells s a q = some t) :
    writeCells s a (q ++ r) = writeCells t (a + q.length) r := by
  induction q generalizing s a with
  | nil =>
    cases h
    rfl
  | cons v q ih =>
    rw [writeCells] at h
    rw [List.cons_append, writeCells]
    by_cases ha : a < s.capacity.val
    · rw [memWrite_of_lt v ha] at h ⊢
      rw [List.length_cons, show a + (q.length + 1) = a + 1 + q.length by omega]
      exact ih (s := s.withData (Memory.write s.data a v)) h
    · rw [memWrite_of_not_lt v ha] at h
      cases h

end Sys2Proof.Machine
end

