-- ==== Sys2Proof/Laws/Frame.lean ====
section
/-! SUPPORT. The frame a state spells and its checksum, in closed form (30_encoding.md R71, 40_checksum.md R104, R106). -/

namespace Sys2Proof.Machine

@[simp] theorem framingBytes_length (s : State) : (framingBytes s).length = 10 := rfl

@[simp] theorem validBytes_length (s : State) : s.validBytes.length = s.length.toNat := by
  simp [State.validBytes]

/-- While the length fits, the payload is the valid bytes. -/
theorem payload_eq {s : State} (h : s.lengthFits) : payload s = some s.validBytes := by
  rw [payload, readCells_eq (by simpa [State.lengthFits] using h), State.validBytes, List.range_eq_range']

/-- While the length exceeds the capacity, the payload takes in a cell that does not exist. -/
theorem payload_none {s : State} (h : ¬s.lengthFits) : payload s = none := by
  simp only [State.lengthFits, not_le] at h
  exact readCells_none (by omega) (by omega)

theorem image_eq {s : State} (h : s.lengthFits) : image s = some (framingBytes s ++ s.validBytes) := by
  rw [image, payload_eq h]
  rfl

theorem image_none {s : State} (h : ¬s.lengthFits) : image s = none := by
  rw [image, payload_none h]
  rfl

/-- The covered part of the frame: request, response, length, payload. -/
def coveredBytes (s : State) : List Byte :=
  leBytes s.request ++ leBytes s.response ++ leBytes s.length ++ s.validBytes

theorem frameCrc_eq {s : State} (h : s.lengthFits) : frameCrc s = some (crc16 (coveredBytes s)) := by
  rw [frameCrc, image_eq h]
  rfl

theorem frameCrc_none {s : State} (h : ¬s.lengthFits) : frameCrc s = none := by
  rw [frameCrc, image_none h]
  rfl

theorem validate_eq {s : State} (h : s.lengthFits) :
    validate s = some (if crc16 (coveredBytes s) = s.checksum then .packetReceived else .checksumError) := by
  rw [validate, frameCrc_eq h]
  rfl

theorem validate_none {s : State} (h : ¬s.lengthFits) : validate s = none := by
  rw [validate, frameCrc_none h]
  rfl

/-- The checksum of the frame looks at request, response, length and the valid cells only (40_checksum.md R104). -/
theorem frameCrc_congr {s t : State} (hq : t.request = s.request) (hp : t.response = s.response)
    (hl : t.length = s.length) (hd : ∀ a, a < s.length.toNat → memRead t a = memRead s a) :
    frameCrc t = frameCrc s := by
  have hpay : payload t = payload s := by
    rw [payload, payload, hl]
    exact readCells_congr fun i _ hi => hd i (by omega)
  simp only [frameCrc, image, hpay]
  cases payload s with
  | none => rfl
  | some q => simp [framingBytes, hq, hp, hl]

/-- One byte of the image, as `imageByte` reads it (41_outbound.md R118). -/
theorem imageByte_eq {s : State} {im : List Byte} (h : image s = some im) {p : Nat} (hp : p < im.length) :
    imageByte s p = some im[p] := by
  by_cases hl : s.lengthFits
  · rw [image_eq hl, Option.some.injEq] at h
    subst h
    simp only [imageByte, Config.headerSize]
    by_cases hp10 : p < 10
    · rw [if_pos hp10, List.getElem_append_left (by simpa using hp10), List.getElem?_eq_getElem]
    · rw [if_neg hp10]
      simp only [List.length_append, framingBytes_length, validBytes_length] at hp
      simp only [State.lengthFits] at hl
      rw [List.getElem_append_right (by simpa using hp10), memRead_of_lt (by omega)]
      simp [State.validBytes]
  · rw [image_none hl] at h
    cases h

end Sys2Proof.Machine
end

