-- ==== Sys2Proof/Laws/Inbound.lean ====
section
/-! SUPPORT. CONSTRUCT, position by position: what each position of the frame calls, and what the shared endings of
42_inbound.md R137, R138 and R140 can do. -/

namespace Sys2Proof.Machine

theorem execConstruct_payload {s : State} (b : Byte) (h : 10 ≤ s.internalCounter) :
    execConstruct b s = constructPayload b s := by
  obtain ⟨p, hp⟩ := Nat.exists_eq_add_of_le' h
  simp only [execConstruct, hp]

/-- CONSTRUCT dispatches on the position alone (42_inbound.md R130). -/
theorem execConstruct_cases (b : Byte) (s : State) :
    (s.internalCounter = 0 ∧ execConstruct b s = constructHeaderLow b s) ∨
    (s.internalCounter = 1 ∧ execConstruct b s = constructHeaderHigh b s) ∨
    (s.internalCounter = 2 ∧ execConstruct b s = constructChecksumLow b s) ∨
    (s.internalCounter = 3 ∧ execConstruct b s = constructChecksumHigh b s) ∨
    (s.internalCounter = 4 ∧ execConstruct b s = constructRequestLow b s) ∨
    (s.internalCounter = 5 ∧ execConstruct b s = constructRequestHigh b s) ∨
    (s.internalCounter = 6 ∧ execConstruct b s = constructResponseLow b s) ∨
    (s.internalCounter = 7 ∧ execConstruct b s = constructResponseHigh b s) ∨
    (s.internalCounter = 8 ∧ execConstruct b s = constructLengthLow b s) ∨
    (s.internalCounter = 9 ∧ execConstruct b s = constructLengthHigh b s) ∨
    (10 ≤ s.internalCounter ∧ execConstruct b s = constructPayload b s) := by
  by_cases h : 10 ≤ s.internalCounter
  · simp [h, execConstruct_payload b h]
  · have : s.internalCounter ≤ 9 := by omega
    interval_cases hp : s.internalCounter <;> simp [execConstruct, hp]

@[simp] theorem advance_eq (s : State) :
    advance s = .next (((s.withCounter (s.internalCounter + 1)).withStatus .packetBuilding).answer
      .packetBuilding 0x0000#16 none) := rfl

@[simp] theorem resynchronise_eq (s : State) :
    resynchronise s = .next (((s.withCounter 0).withStatus .headerBytesNotFound).answer
      .headerBytesNotFound 0x0000#16 none) := rfl

/-- A completed frame whose length fits is received or in error, by its checksum (40_checksum.md R106). -/
theorem completeFrame_fits {s : State} (h : s.lengthFits) :
    completeFrame s =
      raise (if crc16 (coveredBytes s) = s.checksum then .packetReceived else .checksumError) s := by
  rw [completeFrame, validate_eq h]
  rfl

/-- A completed frame whose length does not fit is refused (60_exceptions.md R190). -/
theorem completeFrame_refused {s : State} (h : ¬s.lengthFits) :
    completeFrame s = .refused .dataIndexOutOfRange := by
  rw [completeFrame, validate_none h]
  rfl

/-- If a completed frame goes on, only the status and the result change, the length fits, and the status is one of the two
of 40_checksum.md R106. -/
theorem completeFrame_next {s t : State} (h : completeFrame s = .next t) :
    s.lengthFits ∧ ∃ st, (st = .packetReceived ∨ st = .checksumError) ∧
      t = (s.withStatus st).answer st 0x0000#16 none := by
  by_cases hl : s.lengthFits
  · rw [completeFrame_fits hl, raise_eq] at h
    cases h
    refine ⟨hl, _, ?_, rfl⟩
    split <;> simp
  · rw [completeFrame_refused hl] at h
    cases h

/-! ### Everything CONSTRUCT can do, once -/

/-- The lane a byte goes to at positions 0 to 9 (42_inbound.md R131 to R137). -/
def laneStored (b : Byte) (s : State) : State :=
  match s.internalCounter with
  | 0 => s.withHeader (withLo8 s.header b)
  | 1 => s.withHeader (withHi8 s.header b)
  | 2 => s.withChecksum (withLo8 s.checksum b)
  | 3 => s.withChecksum (withHi8 s.checksum b)
  | 4 => s.withRequest (withLo8 s.request b)
  | 5 => s.withRequest (withHi8 s.request b)
  | 6 => s.withResponse (withLo8 s.response b)
  | 7 => s.withResponse (withHi8 s.response b)
  | 8 => s.withLength (withLo8 s.length b)
  | 9 => s.withLength (withHi8 s.length b)
  | _ => s

/-- The cell a byte goes to from position 10 on, and the count of payload bytes (42_inbound.md R138). -/
def byteStored (b : Byte) (s : State) : State :=
  (s.withData (Memory.write s.data s.dataLengthCounter.toNat b)).withDataCounter (s.dataLengthCounter + 1#16)

@[simp] theorem laneStored_internalCounter (b : Byte) (s : State) :
    (laneStored b s).internalCounter = s.internalCounter := by
  unfold laneStored
  split <;> rfl

@[simp] theorem laneStored_capacity (b : Byte) (s : State) : (laneStored b s).capacity = s.capacity := by
  unfold laneStored
  split <;> rfl

@[simp] theorem laneStored_data (b : Byte) (s : State) : (laneStored b s).data = s.data := by
  unfold laneStored
  split <;> rfl

@[simp] theorem laneStored_dataLengthCounter (b : Byte) (s : State) :
    (laneStored b s).dataLengthCounter = s.dataLengthCounter := by
  unfold laneStored
  split <;> rfl

/-- Every update of a byte stored from position 10 on. -/
@[simp] theorem byteStored_internalCounter (b : Byte) (s : State) :
    (byteStored b s).internalCounter = s.internalCounter := rfl

@[simp] theorem byteStored_capacity (b : Byte) (s : State) : (byteStored b s).capacity = s.capacity := rfl

@[simp] theorem byteStored_length (b : Byte) (s : State) : (byteStored b s).length = s.length := rfl

/-- The outcomes of a completed frame (40_checksum.md R106). -/
def completionStatus (st : Status) : Prop := st = .packetReceived ∨ st = .checksumError

/-- If a completed frame goes on, its length fits, and it is settled with one of those outcomes. -/
theorem completeFrame_inv {s t : State} (h : completeFrame s = .next t) :
    s.lengthFits ∧ ∃ st, completionStatus st ∧ t = s.settled st := completeFrame_next h

/-- CONSTRUCT at positions 0 to 9 (42_inbound.md R142): the header is lost; or the byte is stored in its lane and the
counter moves on; or, at position 9, the new length is too large, or it is zero and the frame is complete. -/
theorem execConstruct_field_next {b : Byte} {s t : State} (hp : s.internalCounter ≤ 9)
    (h : execConstruct b s = .next t) :
    (s.internalCounter ≤ 1 ∧ b ≠ Config.magicByte ∧ t = (s.withCounter 0).settled .headerBytesNotFound) ∨
    ((s.internalCounter ≤ 1 → b = Config.magicByte) ∧
      (s.internalCounter = 9 → 0 < (laneStored b s).length.toNat ∧ (laneStored b s).lengthFits) ∧
      t = ((laneStored b s).withCounter (s.internalCounter + 1)).settled .packetBuilding) ∨
    (s.internalCounter = 9 ∧ s.capacity.val < (laneStored b s).length.toNat ∧
      t = (laneStored b s).settled .invalidDataLengthDetected) ∨
    (s.internalCounter = 9 ∧ (laneStored b s).length = 0x0000#16 ∧
      ∃ st, completionStatus st ∧ t = (laneStored b s).settled st) := by
  rcases execConstruct_cases b s with ⟨hc, e⟩ | ⟨hc, e⟩ | ⟨hc, e⟩ | ⟨hc, e⟩ | ⟨hc, e⟩ | ⟨hc, e⟩ | ⟨hc, e⟩ | ⟨hc, e⟩ |
    ⟨hc, e⟩ | ⟨hc, e⟩ | ⟨hc, e⟩ <;> rw [e] at h
  · rw [constructHeaderLow] at h
    split at h
    · cases h
      exact Or.inl ⟨by omega, by assumption, rfl⟩
    · cases h
      refine Or.inr (Or.inl ⟨fun _ => not_not.1 (by assumption), by omega, ?_⟩)
      obtain ⟨⟩ := s
      cases hc
      rfl
  · rw [constructHeaderHigh] at h
    split at h
    · cases h
      exact Or.inl ⟨by omega, by assumption, rfl⟩
    · cases h
      refine Or.inr (Or.inl ⟨fun _ => not_not.1 (by assumption), by omega, ?_⟩)
      obtain ⟨⟩ := s
      cases hc
      rfl
  iterate 7
    · cases h
      refine Or.inr (Or.inl ⟨by omega, by omega, ?_⟩)
      obtain ⟨⟩ := s
      cases hc
      rfl
  · have hs : laneStored b s = s.withLength (withHi8 s.length b) := by simp only [laneStored, hc]
    rw [constructLengthHigh, ← hs, lengthDecoded] at h
    split at h
    · obtain ⟨-, st, hst, et⟩ := completeFrame_inv h
      exact Or.inr (Or.inr (Or.inr ⟨hc, by assumption, st, hst, et⟩))
    · have hne : (laneStored b s).length.toNat ≠ 0 := fun h0 => by
        rename_i hz
        exact hz (BitVec.eq_of_toNat_eq h0)
      have hcap : (laneStored b s).capacity.val = s.capacity.val := by rw [hs, State.withLength_capacity]
      have hctr : (laneStored b s).internalCounter = s.internalCounter := by rw [hs, State.withLength_internalCounter]
      split at h
      · cases h
        exact Or.inr (Or.inr (Or.inl ⟨hc, by omega, rfl⟩))
      · cases h
        refine Or.inr (Or.inl ⟨by omega, fun _ => ⟨by omega, ?_⟩, by rw [hctr]; rfl⟩)
        simp only [State.lengthFits]
        omega
  · omega

/-- CONSTRUCT from position 10 on (42_inbound.md R142): the byte is beyond the frame end and dropped; or it is stored and
the counter moves on; or it is stored and the frame is complete. -/
theorem execConstruct_payload_next {b : Byte} {s t : State} (hp : 10 ≤ s.internalCounter)
    (h : execConstruct b s = .next t) :
    ((s.length.toNat ≤ s.dataLengthCounter.toNat ∨ s.length.toNat ≤ s.internalCounter - 10) ∧
      t = s.settled .packetOverflow) ∨
    (s.dataLengthCounter.toNat < s.length.toNat ∧ s.internalCounter - 10 < s.length.toNat ∧
      s.dataLengthCounter.toNat < s.capacity.val ∧
      (s.dataLengthCounter + 1#16).toNat = s.dataLengthCounter.toNat + 1 ∧
      ((s.dataLengthCounter.toNat + 1 < s.length.toNat ∧
          t = ((byteStored b s).withCounter (s.internalCounter + 1)).settled .packetBuilding) ∨
        (s.dataLengthCounter + 1#16 = s.length ∧ s.lengthFits ∧
          ∃ st, completionStatus st ∧ t = (byteStored b s).settled st))) := by
  rw [execConstruct_payload b hp, constructPayload] at h
  split at h
  · cases h
    exact Or.inl ⟨by assumption, rfl⟩
  · rename_i hno
    rw [not_or, not_le, not_le] at hno
    obtain ⟨hd, hi⟩ := hno
    obtain ⟨u, hu, h⟩ := orRefuse_next_iff.1 h
    have hcap : s.dataLengthCounter.toNat < s.capacity.val := by
      by_contra hc
      rw [memWrite_of_not_lt b hc] at hu
      cases hu
    rw [memWrite_of_lt b hcap, Option.some.injEq] at hu
    subst hu
    have hn : (s.dataLengthCounter + 1#16).toNat = s.dataLengthCounter.toNat + 1 := by
      have := s.length.isLt
      rw [BitVec.toNat_add, BitVec.toNat_ofNat]
      omega
    refine Or.inr ⟨hd, hi, hcap, hn, ?_⟩
    rw [payloadStored] at h
    split at h
    · rename_i hdone
      obtain ⟨hf, st, hst, et⟩ := completeFrame_inv h
      exact Or.inr ⟨hdone, hf, st, hst, et⟩
    · rename_i hmore
      cases h
      refine Or.inl ⟨?_, rfl⟩
      have : (s.dataLengthCounter + 1#16).toNat ≠ s.length.toNat := fun he => hmore (BitVec.eq_of_toNat_eq he)
      omega

end Sys2Proof.Machine
end

