-- ==== Sys2Proof/Laws/Outbound.lean ====
section
/-! SUPPORT. What the shared outbound operations can do: the append, the commit and the build (41_outbound.md R112 to
R116). -/

namespace Sys2Proof.Machine

/-- An append that does not fit changes the status and the result only (41_outbound.md R112). -/
theorem appendPayload_overflow {q : List Byte} {s : State} (h : s.capacity.val < q.length + s.length.toNat) :
    appendPayload q s = raise .packetOverflow s := if_pos h

/-- An append that fits (41_outbound.md R112): the cells from `length` on hold the bytes, every other cell is as before,
the length grows by their number, and the canonical form is kept. -/
theorem appendPayload_fits {q : List Byte} {s : State} (h : q.length + s.length.toNat ≤ s.capacity.val) :
    ∃ m, appendPayload q s = .next { s with
        data := m, length := s.length + BitVec.ofNat 16 q.length, status := .ok, result := resultOf .ok 0x0000#16 } ∧
      (Memory.wf s.data = true → Memory.wf m = true) ∧
      (Memory.within s.data s.capacity.val = true → Memory.within m s.capacity.val = true) ∧
      (∀ i, i < s.length.toNat ∨ s.length.toNat + q.length ≤ i → Memory.read m i = Memory.read s.data i) ∧
      (Memory.wf s.data = true → ∀ k (hk : k < q.length), Memory.read m (s.length.toNat + k) = q[k]) := by
  obtain ⟨m, e, hs⟩ := writeCells_spec (s := s) (a := s.length.toNat) (q := q) (by omega)
  refine ⟨m, ?_, hs⟩
  rw [appendPayload, if_neg (by omega), e]
  rfl

/-- The length after an append that fits, as a number: it never wraps (41_outbound.md R112, D22). -/
theorem append_length_toNat {n : Nat} {s : State} (h : n + s.length.toNat ≤ s.capacity.val) :
    (s.length + BitVec.ofNat 16 n).toNat = s.length.toNat + n := by
  have := s.capacity.isLt
  rw [BitVec.toNat_add, BitVec.toNat_ofNat]
  omega

/-- The commit of a frame whose length fits (41_outbound.md R113). -/
theorem commitFrame_fits {s : State} (h : s.lengthFits) :
    commitFrame s = .next { s with
      checksum := crc16 (coveredBytes s), header := Config.magic, result := resultOf .ok 0x0000#16 } := by
  rw [commitFrame, frameCrc_eq h]
  rfl

/-- The commit is refused while the length exceeds the capacity (41_outbound.md R113). -/
theorem commitFrame_refused {s : State} (h : ¬s.lengthFits) :
    commitFrame s = .refused .dataIndexOutOfRange := by
  rw [commitFrame, frameCrc_none h]
  rfl

/-- The valid bytes of a cleared packet after an append that fits are the bytes appended. -/
theorem validBytes_append {m : Memory} {t : State} {q : List Byte} (hd : t.data = m)
    (hl : t.length = BitVec.ofNat 16 q.length) (hq : q.length < 65536)
    (hval : ∀ k (hk : k < q.length), Memory.read m k = q[k]) : t.validBytes = q := by
  have hn : t.length.toNat = q.length := by
    rw [hl, BitVec.toNat_ofNat]
    omega
  apply List.ext_getElem (by simp [hn])
  intro k hk hk'
  simp [State.validBytes, hd, hval k hk']

/-- A builder whose payload does not fit (41_outbound.md R114). -/
theorem buildFrame_overflow {a b : Halfword} {q : List Byte} {s : State} (h : s.capacity.val < q.length) :
    buildFrame a b q s = .next (unbuiltFrame a b s) := by
  rw [buildFrame, appendPayload_overflow (by simpa using h)]
  rfl

/-- A builder whose payload fits (41_outbound.md R114 to R116): a finalised frame, in a canonical buffer. -/
theorem buildFrame_fits {a b : Halfword} {q : List Byte} {s : State} (h : q.length ≤ s.capacity.val)
    (hw : Memory.wf s.data = true) :
    ∃ t, buildFrame a b q s = .next t ∧ builtFrame a b q s t ∧ Memory.wf t.data = true ∧
      (Memory.within s.data s.capacity.val = true → Memory.within t.data s.capacity.val = true) := by
  have hcap := s.capacity.isLt
  obtain ⟨m, e, hwf, hin, hout, hval⟩ :=
    appendPayload_fits (q := q) (s := (s.clearFraming.withRequest a).withResponse b) (by simpa using h)
  simp only [State.withResponse_data, State.withRequest_data, State.clearFraming_data, State.withResponse_length,
    State.withRequest_length, State.clearFraming_length, BitVec.toNat_zero, Nat.zero_add,
    State.withResponse_capacity, State.withRequest_capacity, State.clearFraming_capacity] at hwf hin hout hval
  rw [buildFrame, e, andThen_next, if_neg (by simp)]
  have hlen : (0x0000#16 + BitVec.ofNat 16 q.length : Halfword) = BitVec.ofNat 16 q.length := by simp
  have hnat : (BitVec.ofNat 16 q.length : Halfword).toNat = q.length := by
    rw [BitVec.toNat_ofNat]
    omega
  refine ⟨_, commitFrame_fits ?_, ⟨rfl, rfl, rfl, ?_, ?_, rfl, rfl, rfl, rfl, rfl, rfl, rfl, ?_, ?_⟩, hwf hw, hin⟩
  · simpa [State.lengthFits, hnat] using h
  · simp
  · simp only [coveredBytes, State.withResponse_length, State.withRequest_length, State.clearFraming_length, hlen]
    rw [validBytes_append rfl (by simp) (by omega) (hval hw)]
    rfl
  · intro k hk
    have hv : Memory.read m k = q[k] := by simpa using hval hw k hk
    exact (if_pos (show k < s.capacity.val by omega)).trans (congrArg some hv)
  · intro k hk
    have hv : Memory.read m k = Memory.read s.data k := hout k (Or.inr (by simpa using hk))
    exact congrArg (fun b => if k < s.capacity.val then some b else none) hv

/-! ### Everything an outbound operation that goes on can have done -/

/-- An append that goes on did not fit, or appended (41_outbound.md R112). -/
theorem appendPayload_next {q : List Byte} {s t : State} (h : appendPayload q s = .next t) :
    (s.capacity.val < q.length + s.length.toNat ∧ t = s.settled .packetOverflow) ∨
    (q.length + s.length.toNat ≤ s.capacity.val ∧
      ∃ m, t = ((s.withData m).withLength (s.length + BitVec.ofNat 16 q.length)).settled .ok ∧
        (Memory.wf s.data = true → Memory.wf m = true) ∧
        (Memory.within s.data s.capacity.val = true → Memory.within m s.capacity.val = true) ∧
        (∀ i, i < s.length.toNat ∨ s.length.toNat + q.length ≤ i → Memory.read m i = Memory.read s.data i) ∧
        (Memory.wf s.data = true → ∀ k (hk : k < q.length), Memory.read m (s.length.toNat + k) = q[k])) := by
  by_cases hc : s.capacity.val < q.length + s.length.toNat
  · rw [appendPayload_overflow hc] at h
    cases h
    exact Or.inl ⟨hc, rfl⟩
  · obtain ⟨m, e, hm⟩ := appendPayload_fits (q := q) (s := s) (by omega)
    rw [e] at h
    cases h
    exact Or.inr ⟨by omega, m, rfl, hm⟩

/-- A commit that goes on wrote the checksum and the header of a frame whose length fits (41_outbound.md R113). -/
theorem commitFrame_next {s t : State} (h : commitFrame s = .next t) :
    s.lengthFits ∧ t.finalised ∧
      t = ((s.withChecksum (crc16 (coveredBytes s))).withHeader Config.magic).answer .ok 0x0000#16 none := by
  by_cases hl : s.lengthFits
  · rw [commitFrame_fits hl] at h
    cases h
    exact ⟨hl, ⟨rfl, (frameCrc_congr rfl rfl rfl fun _ _ => rfl).trans (frameCrc_eq hl)⟩, rfl⟩
  · rw [commitFrame_refused hl] at h
    cases h

/-- A build that goes on did not fit, or left a finalised frame with cursor 0, its payload in the first cells and every
other cell as before (41_outbound.md R114 to R116). -/
theorem buildFrame_next {a b : Halfword} {q : List Byte} {s t : State} (h : buildFrame a b q s = .next t) :
    (s.capacity.val < q.length ∧ t = unbuiltFrame a b s) ∨
    (q.length ≤ s.capacity.val ∧ t.finalised ∧
      t = { s with
        header := Config.magic, checksum := t.checksum, request := a, response := b,
        length := BitVec.ofNat 16 q.length, data := t.data, internalCounter := 0, dataLengthCounter := 0x0000#16,
        status := .ok, result := resultOf .ok 0x0000#16 } ∧
      (Memory.wf s.data = true → Memory.wf t.data = true) ∧
      (Memory.within s.data s.capacity.val = true → Memory.within t.data s.capacity.val = true) ∧
      (∀ i, q.length ≤ i → Memory.read t.data i = Memory.read s.data i) ∧
      (Memory.wf s.data = true → ∀ k (hk : k < q.length), Memory.read t.data k = q[k])) := by
  by_cases hc : s.capacity.val < q.length
  · rw [buildFrame_overflow hc] at h
    cases h
    exact Or.inl ⟨hc, rfl⟩
  · obtain ⟨m, e, hwf, hin, hout, hval⟩ :=
      appendPayload_fits (q := q) (s := (s.clearFraming.withRequest a).withResponse b) (by simpa using hc)
    have hlen : ((s.clearFraming.withRequest a).withResponse b).length + BitVec.ofNat 16 q.length =
        BitVec.ofNat 16 q.length := by simp
    rw [hlen] at e
    rw [buildFrame, e, andThen_next, if_neg (by simp)] at h
    obtain ⟨-, hfin, et⟩ := commitFrame_next h
    refine Or.inr ⟨by omega, hfin, ?_, ?_, ?_, ?_, ?_⟩
    · rw [et]
      rfl
    · rw [et]
      exact hwf
    · rw [et]
      exact hin
    · rw [et]
      exact fun i hi => hout i (Or.inr (by simpa using hi))
    · rw [et]
      exact fun w k hk => by simpa using hval w k hk

/-- BYTES that goes on returned the image (41_outbound.md R117). -/
theorem execBytes_next {s t : State} (h : execBytes s = .next t) :
    s.lengthFits ∧ t = s.answer .ok 0x0000#16 (some (framingBytes s ++ s.validBytes)) := by
  by_cases hl : s.lengthFits
  · rw [execBytes, image_eq hl] at h
    cases h
    exact ⟨hl, rfl⟩
  · rw [execBytes, image_none hl] at h
    cases h

/-- GET_BYTE that goes on returned the byte at the cursor, or was past the end (41_outbound.md R118). -/
theorem execGetByte_next {s t : State} (h : execGetByte s = .next t) :
    (s.internalCounter < 10 + s.length.toNat ∧ ∃ b, imageByte s s.internalCounter = some b ∧
      t = ((s.withCounter (s.internalCounter + 1)).withStatus .ok).answer .ok (zext16 b) none) ∨
    (10 + s.length.toNat ≤ s.internalCounter ∧ t = (s.withCounter 0).settled .getByteFinished) := by
  by_cases hp : s.internalCounter < 10 + s.length.toNat
  · rw [execGetByte, if_pos hp] at h
    obtain ⟨b, e, h⟩ := orRefuse_next_iff.1 h
    cases h
    exact Or.inl ⟨hp, b, e, rfl⟩
  · rw [execGetByte, if_neg hp] at h
    cases h
    exact Or.inr ⟨by omega, rfl⟩

end Sys2Proof.Machine
end

