-- ==== Sys2Proof/Laws/PerInstr.lean ====
section
/-! SUPPORT. Per instruction: the encoder writes a canonical command, with a defined code and its unused operands zero
(30_encoding.md R79, R83). -/

namespace Sys2Proof.Laws.EncodeCanonical

/-- The command the encoder writes for an operation is canonical. -/
def Statement (i : Instr) : Prop := (encode i).canonical = true

theorem reset : Statement .reset := by unfold Statement; decide
theorem resetLazy : Statement .resetLazy := by unfold Statement; decide
theorem crc16 (q : List Byte) : Statement (.crc16 q) := rfl
theorem setRequest (a : Halfword) : Statement (.setRequest a) := rfl
theorem setResponse (a : Halfword) : Statement (.setResponse a) := rfl
theorem addData (q : List Byte) : Statement (.addData q) := rfl
theorem pack : Statement .pack := by unfold Statement; decide
theorem packData (a : Halfword) (q : List Byte) : Statement (.packData a q) := rfl
theorem packError (a b : Halfword) (q : List Byte) : Statement (.packError a b q) := rfl
theorem packId (q : List Byte) : Statement (.packId q) := rfl
theorem bytes : Statement .bytes := by unfold Statement; decide
theorem getByte : Statement .getByte := by unfold Statement; decide

theorem construct (b : Byte) : Statement (.construct b) := by
  have h : (zext16 b >>> 8 : Halfword) = 0#16 := by
    apply BitVec.eq_of_toNat_eq
    have := b.isLt
    simp [zext16, Nat.shiftRight_eq_div_pow]
    omega
  simp [Statement, encode, Command.canonical, Command.wf, unusedOperandsZero, unusedAZero, usesQ, h]
  decide

theorem getRequest : Statement .getRequest := by unfold Statement; decide
theorem getResponse : Statement .getResponse := by unfold Statement; decide
theorem getLength : Statement .getLength := by unfold Statement; decide
theorem getChecksum : Statement .getChecksum := by unfold Statement; decide
theorem getStatus : Statement .getStatus := by unfold Statement; decide
theorem getData (a : Halfword) : Statement (.getData a) := rfl

end Sys2Proof.Laws.EncodeCanonical
end

