-- ==== Sys2Proof/Laws/ResetAccess.lean ====
section
/-! SUPPORT. What GET_DATA, the one accessor with cases, can do (43_reset_access.md R157). -/

namespace Sys2Proof.Machine

/-- GET_DATA that goes on returned a valid cell, or an unspecified byte at the cost of one draw. -/
theorem execGetData_next {a : Halfword} {s t : State} (h : execGetData a s = .next t) :
    (a.toNat < s.length.toNat ∧ ∃ b, memRead s a.toNat = some b ∧ t = s.answer .ok (zext16 b) none) ∨
    (s.length.toNat ≤ a.toNat ∧ ∃ v, t = s.drawn.answer .ok v none) := by
  by_cases ha : a.toNat < s.length.toNat
  · rw [execGetData, if_pos ha] at h
    obtain ⟨b, e, h⟩ := orRefuse_next_iff.1 h
    cases h
    exact Or.inl ⟨ha, b, e, rfl⟩
  · rw [execGetData, if_neg ha] at h
    cases h
    exact Or.inr ⟨by omega, _, rfl⟩

end Sys2Proof.Machine
end

