-- ==== Sys2Proof/Laws/Script.lean ====
section
/-! SUPPORT. Sequences of operations: what runOps, FEED and DRAIN do with one operation more, and with two sequences joined
(30_encoding.md R84). -/

namespace Sys2Proof.Machine

@[simp] theorem runOps_nil (s : State) : runOps [] s = ([], .next s) := rfl

theorem runOps_cons {i : Instr} {is : List Instr} {s t : State} (h : exec i s = .next t) :
    runOps (i :: is) s = (t.results ++ (runOps is t).1, (runOps is t).2) := by
  rw [runOps, h]

/-- A script whose first part goes on is that part, then the rest from where it ended. -/
theorem runOps_append {is js : List Instr} {s t : State} {rs : List Result} (h : runOps is s = (rs, .next t)) :
    runOps (is ++ js) s = (rs ++ (runOps js t).1, (runOps js t).2) := by
  induction is generalizing s rs with
  | nil =>
    cases h
    rfl
  | cons i is ih =>
    rw [List.cons_append, runOps]
    rw [runOps] at h
    cases he : exec i s with
    | next u =>
      rw [he] at h
      simp only [Prod.mk.injEq] at h
      obtain ⟨rfl, h2⟩ := h
      simp only [ih (s := u) (rs := (runOps is u).1) (Prod.ext rfl h2), List.append_assoc]
    | fault e => cases e
    | refused r =>
      rw [he] at h
      cases h

@[simp] theorem feed_nil (s : State) : feed [] s = ([], .next s) := rfl

/-- One byte fed, then the rest. -/
theorem feed_cons {b : Byte} {bs : List Byte} {s t : State} {st : Status} {v : Halfword} {r : Option (List Byte)}
    (h : execConstruct b s = .next t) (hr : t.result = some ⟨st, v, r⟩) :
    feed (b :: bs) s = (st :: (feed bs t).1, (feed bs t).2) := by
  have e : exec (.construct b) s = .next t := h
  simp only [feed, List.map_cons, runOps_cons e, State.results, hr, Option.toList,
    List.cons_append, List.nil_append]

theorem feed_append {bs cs : List Byte} {s t : State} {sts : List Status} (h : feed bs s = (sts, .next t)) :
    feed (bs ++ cs) s = (sts ++ (feed cs t).1, (feed cs t).2) := by
  simp only [feed, Prod.mk.injEq] at h
  obtain ⟨h1, h2⟩ := h
  have e : runOps (bs.map Instr.construct) s = ((runOps (bs.map Instr.construct) s).1, .next t) := Prod.ext rfl h2
  simp only [feed, List.map_append, runOps_append e, h1]

end Sys2Proof.Machine
end

