-- ==== Sys2Proof/Tests/Slice0.lean ====
section
/-! SUPPORT. Tests on fixed values, each expected result from the spec (95_test_vectors.md, named V<n>, or the rule named),
and for every statement with hypotheses a witness that meets them. -/

namespace Sys2Proof.Tests

open Sys2Proof.Machine

/-! ### What WellFormed refuses -/

/-- V80: the undefined codes. -/
theorem test_undefined_codes_refused :
    ([0x00#8, 0x03#8, 0x27#8, 0x2A#8, 0x31#8, 0x46#8, 0xFF#8].map opcodeDefined) = List.replicate 7 false := by decide

theorem test_command_ill_formed : Command.wf ⟨0x27#8, 0, 0, []⟩ = false := by decide

/-- 30_encoding.md R83: an unused operand `a`, `b`, `q`, and the ignored high lane of CONSTRUCT. -/
theorem test_unused_a_not_canonical : Command.canonical ⟨0x23#8, 1, 0, []⟩ = false := by decide
theorem test_unused_b_not_canonical : Command.canonical ⟨0x20#8, 0, 1, []⟩ = false := by decide
theorem test_unused_q_not_canonical : Command.canonical ⟨0x29#8, 0, 0, [0x00#8]⟩ = false := by decide
theorem test_construct_high_lane_not_canonical : Command.canonical ⟨0x30#8, 0x0155#16, 0, []⟩ = false := by decide
theorem test_undefined_code_not_canonical : Command.canonical ⟨0xFF#8, 0, 0, []⟩ = false := by decide

/-- 00_scope.md R4: 65534 is the largest capacity. -/
theorem test_capacity_out_of_range : capacityInRange 65535 = false ∧ capacityOf? 65535 = none := by decide
theorem test_capacity_largest : capacityInRange 65534 = true ∧ (capacityOf? 65534).isSome = true := by decide

theorem test_memory_unsorted_refused : Memory.wf [(1, 0x01#8), (0, 0x01#8)] = false := by decide
theorem test_memory_repeat_refused : Memory.wf [(1, 0x01#8), (1, 0x02#8)] = false := by decide
theorem test_memory_default_byte_refused : Memory.wf [(1, 0x00#8)] = false := by decide
theorem test_memory_outside_refused : Memory.within [(4, 0x01#8)] 4 = false := by decide
theorem test_descriptor_short_name_refused : Descriptor.wf ⟨1, 2, 3, 64, [0x61#8]⟩ = false := by decide

/-! ### Decoding: words written from the table of 30_encoding.md R79 -/

theorem test_decode_resets :
    decodeTableWord 8 0x01 = some .reset ∧ decodeTableWord 8 0x02 = some .resetLazy := by decide
theorem test_decode_crc16 : decodeTableWord 8 0x10 = some (.crc16 []) := by decide
theorem test_decode_field_writes :
    decodeTableWord 8 0x20 = some (.setRequest 0) ∧ decodeTableWord 8 0x21 = some (.setResponse 0) := by decide
theorem test_decode_append_and_commit :
    decodeTableWord 8 0x22 = some (.addData []) ∧ decodeTableWord 8 0x23 = some .pack := by decide
theorem test_decode_builders :
    decodeTableWord 8 0x24 = some (.packData 0 []) ∧ decodeTableWord 8 0x25 = some (.packError 0 0 []) ∧
      decodeTableWord 8 0x26 = some (.packId []) := by decide
theorem test_decode_serialisers :
    decodeTableWord 8 0x28 = some .bytes ∧ decodeTableWord 8 0x29 = some .getByte := by decide
theorem test_decode_construct : decodeTableWord 8 0x30 = some (.construct 0) := by decide
theorem test_decode_accessors :
    decodeTableWord 8 0x40 = some .getRequest ∧ decodeTableWord 8 0x41 = some .getResponse ∧
      decodeTableWord 8 0x42 = some .getLength ∧ decodeTableWord 8 0x43 = some .getChecksum ∧
      decodeTableWord 8 0x44 = some .getStatus ∧ decodeTableWord 8 0x45 = some (.getData 0) := by decide
theorem test_decode_undefined : decodeTableWord 8 0x27 = none ∧ decodeTableWord 8 0x00 = none := by decide

/-- 30_encoding.md R83: the two worked command records, and the three-byte word `0x30, 0x55, 0x00`. -/
theorem test_encode_examples :
    encode (.addData [0x61#8, 0x62#8, 0x63#8]) = ⟨0x22#8, 0, 0, [0x61#8, 0x62#8, 0x63#8]⟩ ∧
      encode (.construct 0x55#8) = ⟨0x30#8, 0x0055#16, 0, []⟩ ∧
      decodeTableWord 24 0x005530 = some (.construct 0x55#8) := by decide

/-- 30_encoding.md R79: for CONSTRUCT `a[15:8]` is ignored. -/
theorem test_decode_construct_ignores_high_lane : decode ⟨0x30#8, 0xAB55#16, 7, [1]⟩ = .instr (.construct 0x55#8) := by decide

/-! ### One operation each, on small states -/

/-- A power-on instance of a capacity. -/
def fresh (n : Capacity) : State := State.powerOn n

/-- Cells from index 0 on. -/
def cells (q : List Byte) : Memory := (q.zipIdx.map fun c => (c.2, c.1)).filter fun c => c.2 != 0x00#8

/-- The five framing registers as the notation of 95_test_vectors.md writes them, over a capacity and cells. -/
def held (n : Capacity) (hdr cks req rsp len : Halfword) (q : List Byte) : State :=
  { State.powerOn n with header := hdr, checksum := cks, request := req, response := rsp, length := len, data := cells q }

/-- The end of V12: frame C received. -/
def receivedC : State :=
  { held 8 0x5555 0x8A52 0x1234 0xABCD 5 [1, 2, 3, 4, 5] with
    internalCounter := 14, dataLengthCounter := 5, status := .packetReceived }

/-- Frame B before its last byte (V11). -/
def almostB : State :=
  { held 8 0x5555 0x3775 2 1 3 [0x61, 0x62] with
    internalCounter := 12, dataLengthCounter := 2, status := .packetBuilding }

/-- The end of V33: frame B packed. -/
def packedB : State := held 8 0x5555 0x3775 2 1 3 [0x61, 0x62, 0x63]

/-- The end of V40: a length of 5 rejected by a capacity of 4. -/
def rejected : State :=
  { held 4 0x5555 0x8A52 0x1234 0xABCD 5 [] with internalCounter := 9, status := .invalidDataLengthDetected }

/-- The result output an operation leaves. -/
def resultAfter (i : Instr) (s : State) : Option Result := (nextState? (exec i s)).bind (·.result)

/-- V71. -/
theorem test_reset_clears_cells :
    (nextState? (exec .reset receivedC)).map (fun s => (s.data, s.length, s.status)) = some ([], 0, .ok) := by
  decide +kernel
theorem test_resetLazy_keeps_cells :
    (nextState? (exec .resetLazy receivedC)).map (fun s => (s.data, s.length, s.internalCounter, s.status)) =
      some (cells [1, 2, 3, 4, 5], 0, 0, .ok) := by decide +kernel

/-- V8 and V6. -/
theorem test_crc16_check_value :
    resultAfter (.crc16 [0x31, 0x32, 0x33, 0x34, 0x35, 0x36, 0x37, 0x38, 0x39]) (fresh 0) =
      some ⟨.ok, 0xBB3D, none⟩ := by decide +kernel
theorem test_crc16_order : resultAfter (.crc16 [0x01, 0x02]) (fresh 0) = some ⟨.ok, 0x5180, none⟩ := by decide +kernel

/-- V34: a field write leaves the checksum stale; R110, R111: the examples. -/
theorem test_setRequest_stale_checksum :
    (nextState? (exec (.setRequest 3) packedB)).map (fun s => (s.request, s.checksum, s.response)) =
      some (3, 0x3775, 1) := by decide +kernel
theorem test_setResponse_value :
    (nextState? (exec (.setResponse 0xABCD) packedB)).map (fun s => (s.response, s.request)) = some (0xABCD, 2) := by
  decide +kernel

/-- V30: the third and the second command. -/
theorem test_addData_overflow :
    (nextState? (exec (.addData [5]) (held 4 0 0 0 0 4 [1, 2, 3, 4]))).map (fun s => (s.length, s.data, s.status)) =
      some (4, cells [1, 2, 3, 4], .packetOverflow) := by decide +kernel
theorem test_addData_to_the_brim :
    (nextState? (exec (.addData [4]) (held 4 0 0 0 0 3 [1, 2, 3]))).map (fun s => (s.length, s.data, s.status)) =
      some (4, cells [1, 2, 3, 4], .ok) := by decide +kernel

/-- V33; V81. -/
theorem test_pack_frame_b :
    (nextState? (exec .pack (held 8 0 0 2 1 3 [0x61, 0x62, 0x63]))).map (fun s => (s.header, s.checksum)) =
      some (0x5555, 0x3775) := by decide +kernel
theorem test_pack_refused : refusal? (exec .pack rejected) = some .dataIndexOutOfRange := by decide +kernel

/-- V55; V54. -/
theorem test_packData_frame_e :
    (nextState? (exec (.packData 0x00FF [0xDE, 0xAD, 0xBE, 0xEF]) receivedC)).map
      (fun s => (s.checksum, s.response, s.length, s.internalCounter)) = some (0x5E6E, 1, 4, 0) := by decide +kernel
theorem test_packData_overflow :
    (nextState? (exec (.packData 0x0010 [1, 2, 3, 4, 5]) (held 4 0x5555 0x1111 9 0 2 [1, 2]))).map
      (fun s => (s.header, s.request, s.status, s.data)) =
      some (0, 0x0010, .packetOverflow, cells [1, 2]) := by decide +kernel

/-- V51. -/
theorem test_packError_image :
    (nextState? (exec (.packError 0x0007 0xFFFE []) receivedC)).bind image =
      some [0x55, 0x55, 0x00, 0x6F, 0x07, 0x00, 0xFE, 0xFF, 0x00, 0x00] := by decide +kernel

/-- V53. -/
theorem test_packId_frame_i :
    (nextState? (exec (.packId ([1, 2, 3, 0x40, 0, 0x61, 0x62, 0x63] ++ List.replicate 22 0)) (fresh 32))).map
      (fun s => (s.request, s.response, s.length, s.checksum)) = some (1, 1, 30, 0x4BF7) := by decide +kernel

/-- V62, V61, V81. -/
theorem test_bytes_frame_b :
    resultAfter .bytes packedB = some ⟨.ok, 0, some
      [0x55, 0x55, 0x75, 0x37, 0x02, 0x00, 0x01, 0x00, 0x03, 0x00, 0x61, 0x62, 0x63]⟩ := by decide +kernel
theorem test_bytes_refused : refusal? (exec .bytes rejected) = some .dataIndexOutOfRange := by decide +kernel

/-- R118: a payload byte; past the end. -/
theorem test_getByte_payload :
    (nextState? (exec .getByte { packedB with internalCounter := 12 })).map (fun s => (s.byteOut, s.internalCounter)) =
      some (0x63, 13) := by decide +kernel
theorem test_getByte_finished :
    (nextState? (exec .getByte { packedB with internalCounter := 13 })).map
      (fun s => (s.status, s.internalCounter, s.byteOut)) = some (.getByteFinished, 0, 0) := by decide +kernel

/-- V18: the second byte; V11: the last byte. -/
theorem test_construct_resynchronises :
    (nextState? (exec (.construct 0x00) { fresh 8 with header := 0x0055, internalCounter := 1 })).map
      (fun s => (s.header, s.internalCounter, s.status)) = some (0x0055, 0, .headerBytesNotFound) := by decide +kernel
theorem test_construct_completes_frame_b :
    (nextState? (exec (.construct 0x63) almostB)).map
      (fun s => (s.internalCounter, s.dataLengthCounter, s.status, s.data)) =
      some (12, 3, .packetReceived, cells [0x61, 0x62, 0x63]) := by decide +kernel

/-- V70. -/
theorem test_accessors_frame_c :
    resultAfter .getRequest receivedC = some ⟨.ok, 0x1234, none⟩ ∧
      resultAfter .getResponse receivedC = some ⟨.ok, 0xABCD, none⟩ ∧
      resultAfter .getLength receivedC = some ⟨.ok, 0x0005, none⟩ ∧
      resultAfter .getChecksum receivedC = some ⟨.ok, 0x8A52, none⟩ ∧
      resultAfter .getStatus receivedC = some ⟨.ok, 0x0002, none⟩ := by decide +kernel
theorem test_getData_valid : resultAfter (.getData 4) receivedC = some ⟨.ok, 0x0005, none⟩ := by decide +kernel

/-- V81: the cell exists below CAPACITY and does not at it. -/
theorem test_getData_refused :
    resultAfter (.getData 3) rejected = some ⟨.ok, 0x0000, none⟩ ∧
      refusal? (exec (.getData 4) rejected) = some .dataIndexOutOfRange := by decide +kernel

/-- U3: a GET_DATA beyond the length draws a value and changes no other state. -/
theorem test_getData_draws :
    (nextState? (exec (.getData 5) receivedC)).map (fun s => { s with result := none }) =
      some { receivedC with draws := 1 } := by rfl

/-! ### The step -/

/-- V80. -/
theorem test_step_refuses_undefined :
    refusal? (step (State.reset.withFetchWord 8 0x46)) = some (.unknownOperation 0x46) := by decide +kernel
theorem test_step_runs_the_word :
    (nextState? (step (State.reset.withFetchWord 24 0xABCD21))).map (fun s => (s.response, s.commands)) =
      some (0xABCD, []) := by decide +kernel
theorem test_step_idle : step State.reset = .next State.reset := rfl

/-- Frame Z is received by a reset receiver of any capacity (V13). -/
theorem test_frame_z_received :
    (feed [0x55, 0x55, 0, 0, 0, 0, 0, 0, 0, 0] (fresh 0)).1 =
      List.replicate 9 .packetBuilding ++ [.packetReceived] := by decide +kernel

/-- 44_capability_descriptor.md R176. -/
theorem test_descriptor_example :
    (Descriptor.make? 1 2 3 64 [0x61, 0x62, 0x63]).map Descriptor.toPacked =
      some ([1, 2, 3, 0x40, 0, 0x61, 0x62, 0x63] ++ List.replicate 22 0) := by decide +kernel

/-! ### Witnesses: for every statement with hypotheses, a concrete state and operands that meet them, each clause at a
boundary value -/

/-- A full transmitter, ready to emit: frame E. -/
def packedE : State := held 4 0x5555 0x5E6E 0x00FF 1 4 [0xDE, 0xAD, 0xBE, 0xEF]

/-- The state an operation that goes on leaves. -/
def after (i : Instr) (s : State) : State := (nextState? (exec i s)).getD s

/-- An operation that has a next state answers it. -/
theorem exec_after {i : Instr} {s : State} (h : (nextState? (exec i s)).isSome = true) : exec i s = .next (after i s) := by
  unfold after
  cases e : exec i s with
  | next t => rfl
  | fault x => cases x
  | refused r =>
    rw [e] at h
    cases h

/-- What holds of the state an operation leaves holds of every next state it answers. -/
theorem of_after {i : Instr} {s : State} {P : State → Prop} (h : (nextState? (exec i s)).isSome = true)
    (hp : P (after i s)) : ∀ t, exec i s = .next t → P t := by
  intro t ht
  rw [exec_after h] at ht
  cases ht
  exact hp

theorem witness_UndefinedCodeIsRefusedByName :
    ((fresh 0).issue [⟨0x46#8, 0, 0, []⟩]).commands = [⟨0x46#8, 0, 0, []⟩] ∧ opcodeDefined 0x46#8 = false ∧
      opcodeDefined 0x45#8 = true := by decide +kernel

theorem witness_StepRunsDecodedCommand :
    ((fresh 0).issue [encode .pack]).commands = encode .pack :: [] ∧ decode (encode .pack) = .instr .pack ∧
      (fresh 0).commands = [] := by decide +kernel

theorem witness_CanonicalCommandIsItsEncoding :
    decode ⟨0x30#8, 0x0055#16, 0, []⟩ = .instr (.construct 0x55) ∧
      Command.canonical ⟨0x30#8, 0x0055#16, 0, []⟩ = true := by decide +kernel

theorem witness_ResetsLeaveTheResetValues : 65533 < (State.powerOn 65534).capacity.val ∧ 0 < (fresh 1).capacity.val := by
  decide +kernel

/-- A payload is appended, committed and read on a transmitter. -/
theorem witness_LazyResetActsLikeFullReset :
    receivedC.capacity = packedB.capacity ∧ Memory.wf packedB.data = true ∧
      exec .reset receivedC = .next (after .reset receivedC) ∧
      exec .resetLazy packedB = .next (after .resetLazy packedB) ∧
      scriptKeepsContract .transmitter [.addData [0x61], .pack, .bytes] (after .reset receivedC) := by
  refine ⟨rfl, by decide +kernel, exec_after rfl, exec_after rfl, rfl, trivial, of_after (by decide +kernel) ?_⟩
  refine ⟨by change State.internalCounter _ = 0; decide +kernel, trivial, of_after (by decide +kernel) ?_⟩
  refine ⟨⟨by decide +kernel, by decide +kernel⟩, ?_, fun _ _ => trivial⟩
  change BitVec.toNat _ ≤ BitVec.toNat _
  decide +kernel

/-- A frame of one payload byte is taken in on a receiver, to its last byte, and read. -/
theorem witness_LazyResetActsLikeFullReset_receiver :
    scriptKeepsContract .receiver
        ([0x55, 0x55, 0x00, 0x00, 0x00, 0x00, 0x00, 0x00, 0x01, 0x00, 0x61].map .construct ++ [.bytes, .getData 0])
        (after .reset receivedC) ∧
      packedB.capacity = receivedC.capacity := by
  refine ⟨?_, rfl⟩
  iterate 11
    refine ⟨by change terminalOutcome (State.status _) = false; decide +kernel, trivial,
      of_after (by decide +kernel) ?_⟩
  refine ⟨by change BitVec.toNat _ ≤ _; decide +kernel, by change BitVec.toNat _ ≤ BitVec.toNat _; decide +kernel,
    of_after (by decide +kernel) ?_⟩
  refine ⟨by change BitVec.toNat _ ≤ _; decide +kernel,
    ⟨by decide +kernel, by change BitVec.toNat _ ≤ BitVec.toNat _; decide +kernel⟩, fun _ _ => trivial⟩

theorem witness_StaleByteShowsDuringReception :
    0 < packedB.capacity.val ∧ exec .resetLazy packedB = .next (after .resetLazy packedB) :=
  ⟨by decide +kernel, exec_after rfl⟩

theorem witness_CrcIsXorLinear : [0x61#8, 0x62#8].length = [0xFF#8, 0x00#8].length := rfl

theorem witness_CrcDetectsEverySingleBitError : 1 < [0x61#8, 0x62#8].length ∧ 7 < 8 := by decide

theorem witness_MemWriteIsReadBack :
    7 < packedB.capacity.val ∧ Memory.wf packedB.data = true ∧ packedB.capacity.val ≤ 8 := by decide +kernel

theorem witness_AddDataAppendsOrOverflows :
    [4#8].length + (held 4 0 0 0 0 3 [1, 2, 3]).length.toNat ≤ (held 4 0 0 0 0 3 [1, 2, 3]).capacity.val ∧
      Memory.wf (held 4 0 0 0 0 3 [1, 2, 3]).data = true ∧
      (held 4 0 0 0 0 3 [1, 2, 3]).capacity.val < [4#8, 5#8].length + (held 4 0 0 0 0 3 [1, 2, 3]).length.toNat := by
  decide +kernel

theorem witness_AppendsConcatenate :
    exec (.addData [1]) (fresh 2) = .next (after (.addData [1]) (fresh 2)) ∧ (after (.addData [1]) (fresh 2)).status = .ok ∧
      exec (.addData [2]) (after (.addData [1]) (fresh 2)) =
        .next (after (.addData [2]) (after (.addData [1]) (fresh 2))) ∧
      (after (.addData [2]) (after (.addData [1]) (fresh 2))).status = .ok :=
  ⟨exec_after (by decide +kernel), by decide +kernel, exec_after (by decide +kernel), by decide +kernel⟩

theorem witness_PackWritesChecksumAndHeader : packedE.lengthFits ∧ ¬rejected.lengthFits :=
  ⟨by unfold State.lengthFits; decide +kernel, by unfold State.lengthFits; decide +kernel⟩

theorem witness_PackIsIdempotent : exec .pack packedB = .next (after .pack packedB) := exec_after (by decide +kernel)

theorem witness_BuildersFinaliseOrOverflow :
    [1#8, 2, 3, 4].length ≤ packedE.capacity.val ∧ Memory.wf packedE.data = true ∧
      packedE.capacity.val < [1#8, 2, 3, 4, 5].length := by decide +kernel

theorem witness_BytesReturnsTheImage : packedE.lengthFits ∧ ¬rejected.lengthFits := witness_PackWritesChecksumAndHeader

/-- The last byte; past the last byte; the first cell that does not exist (V81: `ic = 14`). -/
theorem witness_GetByteReturnsTheByteAtTheCursor :
    packedE.lengthFits ∧
      (framingBytes { packedE with internalCounter := 13 } ++
        State.validBytes { packedE with internalCounter := 13 })[13]? = some 0xEF ∧
      13 < 10 + rejected.length.toNat ∧ 13 - 10 < rejected.capacity.val ∧
      14 < 10 + rejected.length.toNat ∧ rejected.capacity.val ≤ 14 - 10 ∧
      10 + packedE.length.toNat ≤ 14 :=
  ⟨witness_PackWritesChecksumAndHeader.1, by decide +kernel⟩

theorem witness_DrainEmitsTheWholeFrame : packedE.lengthFits ∧ packedE.internalCounter = 0 :=
  ⟨witness_PackWritesChecksumAndHeader.1, rfl⟩

theorem witness_HeaderPositionsAcceptOnlyMagic :
    (fresh 0).internalCounter = 0 ∧ { fresh 0 with internalCounter := 1 }.internalCounter = 1 ∧ (0x54#8 ≠ 0x55#8) := by
  decide +kernel

/-- One state for each position of the statement. -/
theorem witness_FieldPositionsStoreTheirLane :
    [2, 3, 4, 5, 6, 7, 8].map (fun p => { fresh 0 with internalCounter := p }.internalCounter) = [2, 3, 4, 5, 6, 7, 8] := rfl

/-- Position 9 with a decoded length of 0 (checksum right and wrong), CAPACITY + 1, CAPACITY and 1. -/
theorem witness_LengthIsDecodedAndTested :
    { held 4 0x5555 0xD101 1 0 0 [] with internalCounter := 9 }.internalCounter = 9 ∧
      0x0000#16 = halfword 0x00 (lo8 (0 : Halfword)) ∧
      0xD101#16 = crc16 [0x01, 0x00, 0x00, 0x00, 0x00, 0x00] ∧ 0xD100#16 ≠ crc16 [0x01, 0x00, 0x00, 0x00, 0x00, 0x00] ∧
      rejected.capacity.val < (halfword 0x00 (lo8 (5 : Halfword))).toNat ∧
      (halfword 0x00 (lo8 (4 : Halfword))).toNat ≤ rejected.capacity.val ∧
      0 < (halfword 0x00 (lo8 (1 : Halfword))).toNat := by decide +kernel

/-- A byte beyond the frame by each of the two tests; the first cell that does not exist; a byte in the middle of the
payload; the byte that completes it (`almostB`). -/
theorem witness_PayloadPositionsStoreAndValidate :
    receivedC.length.toNat ≤ receivedC.dataLengthCounter.toNat ∧ (3#16).toNat ≤ 13 - 10 ∧ 10 ≤ receivedC.internalCounter ∧
      (4#16).toNat < (5#16).toNat ∧ 14 - 10 < (5#16).toNat ∧ rejected.capacity.val ≤ (4#16).toNat ∧
      10 ≤ almostB.internalCounter ∧ almostB.dataLengthCounter.toNat < almostB.length.toNat ∧
      almostB.internalCounter - 10 < almostB.length.toNat ∧
      almostB.dataLengthCounter.toNat < almostB.capacity.val ∧ Memory.wf almostB.data = true ∧
      almostB.dataLengthCounter.toNat + 1 = almostB.length.toNat ∧ (1#16).toNat + 1 < almostB.length.toNat := by
  decide +kernel

theorem witness_ConstructAlwaysAnswersItsStatus :
    { rejected with internalCounter := 9 }.internalCounter ≤ 9 ∧ almostB.lengthFits :=
  ⟨by decide +kernel, by unfold State.lengthFits; decide +kernel⟩

theorem witness_CounterAdvancesOnlyWhileBuilding : exec (.construct 0x63) almostB = .next (after (.construct 0x63) almostB) :=
  exec_after (by decide +kernel)

/-- A terminal outcome at a payload position, and one at position 9. -/
theorem witness_NoLatchAfterATerminalOutcome :
    (exec (.construct 0x63) almostB = .next (after (.construct 0x63) almostB) ∧
      terminalOutcome (after (.construct 0x63) almostB).status = true ∧ 10 ≤ almostB.internalCounter) ∧
    (exec (.construct 0x01) rejected = .next (after (.construct 0x01) rejected) ∧
      terminalOutcome (after (.construct 0x01) rejected).status = true ∧ rejected.internalCounter ≤ 9) := by
  refine ⟨⟨exec_after ?_, ?_, ?_⟩, exec_after ?_, ?_, ?_⟩ <;> decide +kernel

/-- A full frame into a receiver it just fits. -/
theorem witness_RoundTripReceivesTheFrame :
    exec .pack packedE = .next (after .pack packedE) ∧ (fresh 4).registersReset ∧ Memory.wf (fresh 4).data = true ∧
      (after .pack packedE).length.toNat ≤ (fresh 4).capacity.val := by
  refine ⟨exec_after ?_, ⟨rfl, rfl, rfl, rfl, rfl, rfl, rfl, rfl⟩, ?_, ?_⟩ <;> decide +kernel

theorem witness_NoiseBeforeAFrameIsSkipped :
    (exec .pack packedE = .next (after .pack packedE) ∧ (fresh 4).registersReset ∧ Memory.wf (fresh 4).data = true ∧
      (after .pack packedE).length.toNat ≤ (fresh 4).capacity.val) ∧ ∀ b ∈ [0x54#8, 0x00#8], b ≠ 0x55#8 :=
  ⟨witness_RoundTripReceivesTheFrame, by decide⟩

/-- Frame Z is received by an instance of capacity 0. -/
theorem witness_NoFrameWithoutTheMagicHeader :
    (fresh 0).registersReset ∧ ∃ t, (feed [0x55, 0x55, 0, 0, 0, 0, 0, 0, 0, 0] (fresh 0)).2 = .next t ∧
      t.status = .packetReceived :=
  ⟨⟨rfl, rfl, rfl, rfl, rfl, rfl, rfl, rfl⟩, { fresh 0 with
    header := 0x5555, internalCounter := 9, status := .packetReceived, result := resultOf .packetReceived 0 },
    rfl, rfl⟩

/-- The first and the last offset of the first range, the first and the last of the second (frame E has 14 bytes). -/
theorem witness_SingleByteErrorIsDetected :
    (exec .pack packedE = .next (after .pack packedE) ∧
      image (after .pack packedE) = some (framingBytes packedE ++ packedE.validBytes) ∧ (fresh 4).registersReset ∧
      Memory.wf (fresh 4).data = true ∧ (after .pack packedE).length.toNat ≤ (fresh 4).capacity.val) ∧
    [2, 7, 10, 13].map (fun j => (framingBytes packedE ++ packedE.validBytes)[j]?) =
      [some 0x6E, some 0x00, some 0xDE, some 0xEF] ∧
    (framingBytes packedE ++ packedE.validBytes).length = 14 := by
  refine ⟨⟨exec_after ?_, ?_, ⟨rfl, rfl, rfl, rfl, rfl, rfl, rfl, rfl⟩, ?_, ?_⟩, ?_, ?_⟩ <;> decide +kernel

theorem witness_GetDataReturnsValidBytesOnly :
    (4#16).toNat < receivedC.length.toNat ∧ (4#16).toNat < receivedC.capacity.val ∧
      (4#16).toNat < rejected.length.toNat ∧ rejected.capacity.val ≤ (4#16).toNat ∧
      receivedC.length.toNat ≤ (5#16).toNat := by decide +kernel

/-- An operation that writes some registers and leaves others; for an append, a payload byte and a builder, the last cell
written and the first one that is not. -/
theorem witness_OnlyTheListedWritersWrite :
    exec (.addData [1]) packedB = .next (after (.addData [1]) packedB) ∧
      Register.header ∉ writes (.addData [1]) packedB ∧
      writesCell (.addData [1]) packedB 3 ∧ ¬writesCell (.addData [1]) packedB 4 ∧
      writesCell (.construct 0x63) almostB 2 ∧ ¬writesCell (.construct 0x63) almostB 3 ∧
      writesCell (.packId [1, 2]) packedB 1 ∧ ¬writesCell (.packId [1, 2]) packedB 2 := by
  refine ⟨exec_after (by decide +kernel), by decide, ?_⟩
  simp only [writesCell]
  decide +kernel

/-- The first and the last code of the table. -/
theorem witness_AccessorsReturnTheirRegister :
    (fresh 0).status = .ok ∧ rejected.status = .invalidDataLengthDetected := ⟨rfl, rfl⟩

theorem witness_StatusTakesOnlyItsListedValues :
    exec .pack packedB = .next (after .pack packedB) ∧ statusValues .pack = [] ∧
      exec .getByte packedB = .next (after .getByte packedB) ∧ statusValues .getByte ≠ [] :=
  ⟨exec_after (by decide +kernel), rfl, exec_after (by decide +kernel), by decide⟩

theorem witness_ResultStatusIsTheStatusWritten :
    exec .pack packedB = .next (after .pack packedB) ∧ statusValues .pack = [] ∧
      exec .getByte packedB = .next (after .getByte packedB) ∧ statusValues .getByte ≠ [] :=
  witness_StatusTakesOnlyItsListedValues

theorem witness_StatusSteersNoOperation :
    Instr.pack ≠ .getStatus ∧ exec .pack packedB = .next (after .pack packedB) ∧
      exec .pack rejected = .refused .dataIndexOutOfRange :=
  ⟨by decide, exec_after (by decide +kernel), rfl⟩

theorem witness_CapacityIsNeverChanged :
    step ((fresh 4).issue [encode .reset]) = .next (after .reset (fresh 4)) := rfl

/-- Both grounds for a refusal. -/
theorem witness_StepIsRefusedOnlyAsStated :
    step ((fresh 4).issue [⟨0x00#8, 0, 0, []⟩]) = .refused (.unknownOperation 0x00#8) ∧
      step (rejected.issue [encode .bytes]) = .refused .dataIndexOutOfRange := ⟨rfl, rfl⟩

theorem witness_StepKeepsTheStateShape :
    (packedE.issue [encode .pack]).shapeOk ∧ step (packedE.issue [encode .pack]) = .next (after .pack packedE) := by
  refine ⟨⟨by decide +kernel, by decide +kernel, by decide +kernel, Or.inr (by decide +kernel), Or.inr (by decide +kernel)⟩, ?_⟩
  exact exec_after (i := .pack) (s := packedE) (by decide +kernel)

/-- The exception holds too: a byte at position 7. -/
theorem witness_LengthBoundIsKept :
    { fresh 4 with internalCounter := 7 }.lengthFits ∧
      exec (.construct 0x01) { fresh 4 with internalCounter := 7 } =
        .next (after (.construct 0x01) { fresh 4 with internalCounter := 7 }) ∧
      ∀ b, Instr.construct 0x01 = .construct b → (7 ≠ 8 ∧ 7 ≠ 9) :=
  ⟨by unfold State.lengthFits; decide +kernel, exec_after (by decide +kernel), fun _ _ => by decide⟩

/-- At position 8 with `data_length_counter` 0, and at a completing payload position. -/
theorem witness_DataCounterBoundIsKept :
    { fresh 4 with internalCounter := 8 }.counterWithinLength ∧
      exec (.construct 0x01) { fresh 4 with internalCounter := 8 } =
        .next (after (.construct 0x01) { fresh 4 with internalCounter := 8 }) ∧
      { fresh 4 with internalCounter := 8 }.dataLengthCounter = 0x0000#16 ∧
      almostB.counterWithinLength ∧ ¬(almostB.internalCounter = 8 ∨ almostB.internalCounter = 9) :=
  ⟨by unfold State.counterWithinLength; decide +kernel, exec_after (by decide +kernel), rfl,
    by unfold State.counterWithinLength; decide +kernel, by decide +kernel⟩

/-- A receiver inside a payload, and a transmitter in the middle of an emission. -/
theorem witness_ContractedOperationCompletes :
    (almostB.contractOk .receiver ∧ contractAllows .receiver almostB (.construct 0x63)) ∧
      (State.contractOk { packedE with internalCounter := 13 } .transmitter ∧
        contractAllows .transmitter { packedE with internalCounter := 13 } .getByte) := by
  refine ⟨⟨Or.inr (Or.inr ⟨?_, ?_, ?_, ?_, fun _ => ?_⟩), rfl⟩, ⟨?_, rfl, ?_, fun _ => ⟨rfl, ?_⟩⟩, rfl, ?_⟩
  all_goals first
    | decide +kernel
    | (unfold State.lengthFits; decide +kernel)
    | (unfold State.counterWithinLength; decide +kernel)

theorem witness_ResetStartsAContractedRun :
    exec .reset rejected = .next (after .reset rejected) ∧ exec .resetLazy rejected = .next (after .resetLazy rejected) :=
  ⟨exec_after rfl, exec_after rfl⟩

/-- Names of the full width and of one byte more; an input of the packed size. -/
theorem witness_DescriptorRoundTrips :
    (List.replicate 25 0x61#8).length ≤ 25 ∧ 25 < (List.replicate 26 0x61#8).length ∧
      30 ≤ (List.replicate 30 0x00#8).length := by decide

/-- In one script, against the usage contract: an unpacked image, a payload byte, and CONSTRUCT among them. -/
theorem witness_ResetsAgreeOnScriptsReadingWrittenCells :
    receivedC.capacity = packedB.capacity ∧ Memory.wf packedB.data = true ∧
      exec .reset receivedC = .next (after .reset receivedC) ∧
      exec .resetLazy packedB = .next (after .resetLazy packedB) ∧
      scriptReadsWritten [.addData [0x61], .bytes, .construct 0x55, .getData 0] (fun _ => False)
        (after .reset receivedC) := by
  refine ⟨rfl, by decide +kernel, exec_after rfl, exec_after rfl, ⟨trivial, fun _ _ h => h.elim⟩,
    of_after (by decide +kernel) ?_⟩
  refine ⟨⟨trivial, fun a _ h => Or.inl (Or.inr ⟨by decide +kernel, Nat.zero_le a, h.2⟩)⟩,
    of_after (by decide +kernel) ?_⟩
  refine ⟨⟨trivial, fun a _ h => Or.inr h.2.2.2⟩, of_after (by decide +kernel) ?_⟩
  refine ⟨⟨by change BitVec.toNat _ < _; decide +kernel, fun a _ h => ?_⟩, fun _ _ => trivial⟩
  refine Or.inl (Or.inl (Or.inl (Or.inr ⟨by decide +kernel, Nat.zero_le a, ?_⟩)))
  rw [h.2]
  decide +kernel

/-- A length of CAPACITY + 1 is taken in and rejected, and the image is then refused. -/
theorem witness_ResetsAgreeOnScriptsReadingWrittenCells_refused :
    scriptReadsWritten ([0x55, 0x55, 0x00, 0x00, 0x00, 0x00, 0x00, 0x00, 0x09, 0x00].map .construct ++ [.bytes])
      (fun _ => False) (after .reset receivedC) := by
  iterate 10 refine ⟨⟨trivial, fun a _ h => Or.inr h.2.2.2⟩, of_after (by decide +kernel) ?_⟩
  exact ⟨⟨trivial, fun a _ h => absurd h.1 (by unfold State.lengthFits; decide +kernel)⟩, fun _ _ => trivial⟩

/-- The run of StaleByteShowsDuringReception: a stale byte is read by BYTES and GET_DATA, and none is packed. -/
theorem witness_ResetsAgreeOnStatusesAndRegisters :
    receivedC.capacity = packedB.capacity ∧ Memory.wf packedB.data = true ∧
      exec .reset receivedC = .next (after .reset receivedC) ∧
      exec .resetLazy packedB = .next (after .resetLazy packedB) ∧
      scriptPacksWritten
        ([0x55, 0x55, 0x00, 0x00, 0x00, 0x00, 0x00, 0x00, 0x01, 0x00].map .construct ++ [.bytes, .getData 0, .getData 9])
        (fun _ => False) (after .reset receivedC) := by
  refine ⟨rfl, by decide +kernel, exec_after rfl, exec_after rfl, ?_⟩
  iterate 12 refine ⟨fun h => (by cases h), of_after (by decide +kernel) ?_⟩
  exact ⟨fun h => (by cases h), fun _ _ => trivial⟩

theorem witness_ResetsAgreeOnEverySequence :
    receivedC.capacity = packedB.capacity ∧ Memory.wf packedB.data = true ∧
      exec .reset receivedC = .next (after .reset receivedC) ∧
      exec .resetLazy packedB = .next (after .resetLazy packedB) :=
  ⟨rfl, by decide +kernel, exec_after rfl, exec_after rfl⟩

/-- An unpacked image and a payload byte, without CONSTRUCT. -/
theorem witness_ResetsAgreeOnScriptsWithoutConstruct :
    receivedC.capacity = packedB.capacity ∧ Memory.wf packedB.data = true ∧
      exec .reset receivedC = .next (after .reset receivedC) ∧
      exec .resetLazy packedB = .next (after .resetLazy packedB) ∧
      (∀ b, Instr.construct b ∉ [Instr.addData [0x61], .bytes, .getData 0]) ∧
      scriptDrawsNothing [.addData [0x61], .bytes, .getData 0] (after .reset receivedC) := by
  refine ⟨rfl, by decide +kernel, exec_after rfl, exec_after rfl, fun b => by simp, trivial,
    of_after (by decide +kernel) ?_⟩
  refine ⟨trivial, of_after (by decide +kernel) ?_⟩
  exact ⟨by change BitVec.toNat _ < _; decide +kernel, fun _ _ => trivial⟩

end Sys2Proof.Tests
end

section
/-! SUPPORT. What a step can do, said once (00_scope.md R8). -/

namespace Sys2Proof.Machine

/-- The block is idle without a command (log 1). -/
theorem step_of_no_command {s : State} (h : s.commands = []) : step s = .next s := by
  rw [step, h]

/-- A step runs what the oldest command decodes to, on the state without that command. -/
theorem step_of_decoded {s : State} {c : Command} {rest : List Command} {i : Instr}
    (hc : s.commands = c :: rest) (hd : decode c = .instr i) : step s = exec i { s with commands := rest } := by
  simp only [step, hc, hd]

/-- A step refuses a code outside the table by name (30_encoding.md R80). -/
theorem step_of_unknown {s : State} {c : Command} {rest : List Command} {op : Byte}
    (hc : s.commands = c :: rest) (hd : decode c = .unknownOperation op) :
    step s = .refused (.unknownOperation op) := by
  simp only [step, hc, hd]

/-- A step that goes on was idle, or ran an operation. -/
theorem step_next {s t : State} (h : step s = .next t) :
    (s.commands = [] ∧ t = s) ∨
    ∃ c rest i, s.commands = c :: rest ∧ decode c = .instr i ∧ exec i { s with commands := rest } = .next t := by
  cases hc : s.commands with
  | nil =>
    rw [step_of_no_command hc] at h
    cases h
    exact Or.inl ⟨rfl, rfl⟩
  | cons c rest =>
    cases hd : decode c with
    | instr i => exact Or.inr ⟨c, rest, i, rfl, hd, step_of_decoded hc hd ▸ h⟩
    | unknownOperation op =>
      rw [step_of_unknown hc hd] at h
      cases h

end Sys2Proof.Machine
end

section
/-! SUPPORT. CAPACITY is kept by every operation (00_scope.md R4): one lemma for each operation with cases, then all
operations together. -/

namespace Sys2Proof.Machine

theorem appendPayload_capacity {q : List Byte} {s t : State} (h : appendPayload q s = .next t) :
    t.capacity = s.capacity := by
  obtain ⟨-, rfl⟩ | ⟨-, m, rfl, -⟩ := appendPayload_next h <;> rfl

theorem commitFrame_capacity {s t : State} (h : commitFrame s = .next t) : t.capacity = s.capacity := by
  obtain ⟨-, -, rfl⟩ := commitFrame_next h
  rfl

theorem buildFrame_capacity {a b : Halfword} {q : List Byte} {s t : State} (h : buildFrame a b q s = .next t) :
    t.capacity = s.capacity := by
  obtain ⟨-, rfl⟩ | ⟨-, -, et, -⟩ := buildFrame_next h
  · rfl
  · rw [et]

theorem execBytes_capacity {s t : State} (h : execBytes s = .next t) : t.capacity = s.capacity := by
  obtain ⟨-, rfl⟩ := execBytes_next h
  rfl

theorem execGetByte_capacity {s t : State} (h : execGetByte s = .next t) : t.capacity = s.capacity := by
  obtain ⟨-, b, -, rfl⟩ | ⟨-, rfl⟩ := execGetByte_next h <;> rfl

theorem execGetData_capacity {a : Halfword} {s t : State} (h : execGetData a s = .next t) :
    t.capacity = s.capacity := by
  obtain ⟨-, b, -, rfl⟩ | ⟨-, v, rfl⟩ := execGetData_next h <;> rfl

theorem execConstruct_capacity {b : Byte} {s t : State} (h : execConstruct b s = .next t) :
    t.capacity = s.capacity := by
  rcases Nat.lt_or_ge s.internalCounter 10 with hp | hp
  · obtain ⟨-, -, rfl⟩ | ⟨-, -, rfl⟩ | ⟨-, -, rfl⟩ | ⟨-, -, st, -, rfl⟩ :=
      execConstruct_field_next (Nat.le_of_lt_succ hp) h <;> simp
  · obtain ⟨-, rfl⟩ | ⟨-, -, -, -, ⟨-, rfl⟩ | ⟨-, -, st, -, rfl⟩⟩ := execConstruct_payload_next hp h <;> simp

/-- No operation changes CAPACITY; those without a lemma above answer in one way only. -/
theorem exec_capacity {i : Instr} {s t : State} (h : exec i s = .next t) : t.capacity = s.capacity := by
  cases i with
  | addData q => exact appendPayload_capacity h
  | pack => exact commitFrame_capacity h
  | packData a q => exact buildFrame_capacity h
  | packError a b q => exact buildFrame_capacity h
  | packId q => exact buildFrame_capacity h
  | bytes => exact execBytes_capacity h
  | getByte => exact execGetByte_capacity h
  | construct b => exact execConstruct_capacity h
  | getData a => exact execGetData_capacity h
  | reset | resetLazy | crc16 _ | setRequest _ | setResponse _ | getRequest | getResponse | getLength | getChecksum
  | getStatus =>
    cases h
    rfl

end Sys2Proof.Machine
end

section
/-! PROOFS. The statements of 00_scope.md. -/

namespace Sys2Proof.Machine

/-- Settles O44: a step that goes on is idle or runs an operation, and every operation keeps CAPACITY. -/
theorem capacityIsNeverChanged : Obligations.CapacityIsNeverChanged := by
  intro s t h
  obtain ⟨-, rfl⟩ | ⟨c, rest, i, -, -, he⟩ := step_next h
  · rfl
  · exact exec_capacity (s := { s with commands := rest }) he

/-- Settles O3, by the two lemmas on a step with and without a command. -/
theorem stepRunsDecodedCommand : Obligations.StepRunsDecodedCommand :=
  ⟨fun _ _ _ _ => step_of_decoded, fun _ => step_of_no_command⟩

end Sys2Proof.Machine
end

section
/-! SUPPORT. What an operation leaves unchanged (10_state.md R21 to R29, 20_memory.md R56): one rule for each update of the
state, then one lemma for each operation with cases, then all operations together. -/

namespace Sys2Proof.Machine

/-- From `s` to `t` only the given registers and the given cells can have changed, and the driver's commands have not. -/
structure Framed (s t : State) (written : List Register) (cells : Nat → Prop) : Prop where
  registers : ∀ r, r ∉ written → s.sameIn t r
  cells : ∀ a, ¬cells a → memRead t a = memRead s a
  commands : t.commands = s.commands

variable {s t : State} {written : List Register} {cells : Nat → Prop}

theorem Framed.refl (s : State) : Framed s s written cells where
  registers r _ := by
    cases r with
    | data => exact fun _ => rfl
    | _ => rfl
  cells _ _ := rfl
  commands := rfl

/-- The result output is in no list. -/
theorem Framed.answer (h : Framed s t written cells) (st : Status) (v : Halfword) (r : Option (List Byte)) :
    Framed s (t.answer st v r) written cells where
  registers r hr := by
    cases r with
    | _ => exact h.registers _ hr
  cells := h.cells
  commands := h.commands

/-- Nor is the count of draws. -/
theorem Framed.drawn (h : Framed s t written cells) : Framed s t.drawn written cells where
  registers r hr := by
    cases r with
    | _ => exact h.registers _ hr
  cells := h.cells
  commands := h.commands

theorem Framed.withStatus (h : Framed s t written cells) (hw : .status ∈ written) (st : Status) :
    Framed s (t.withStatus st) written cells where
  registers r hr := by
    cases r with
    | status => exact absurd hw hr
    | _ => exact h.registers _ hr
  cells := h.cells
  commands := h.commands

theorem Framed.settled (h : Framed s t written cells) (hw : .status ∈ written) (st : Status) :
    Framed s (t.settled st) written cells := (h.withStatus hw st).answer st 0x0000#16 none

theorem Framed.withHeader (h : Framed s t written cells) (hw : .header ∈ written) (v : Halfword) :
    Framed s (t.withHeader v) written cells where
  registers r hr := by
    cases r with
    | header => exact absurd hw hr
    | _ => exact h.registers _ hr
  cells := h.cells
  commands := h.commands

theorem Framed.withChecksum (h : Framed s t written cells) (hw : .checksum ∈ written) (v : Halfword) :
    Framed s (t.withChecksum v) written cells where
  registers r hr := by
    cases r with
    | checksum => exact absurd hw hr
    | _ => exact h.registers _ hr
  cells := h.cells
  commands := h.commands

theorem Framed.withRequest (h : Framed s t written cells) (hw : .request ∈ written) (v : Halfword) :
    Framed s (t.withRequest v) written cells where
  registers r hr := by
    cases r with
    | request => exact absurd hw hr
    | _ => exact h.registers _ hr
  cells := h.cells
  commands := h.commands

theorem Framed.withResponse (h : Framed s t written cells) (hw : .response ∈ written) (v : Halfword) :
    Framed s (t.withResponse v) written cells where
  registers r hr := by
    cases r with
    | response => exact absurd hw hr
    | _ => exact h.registers _ hr
  cells := h.cells
  commands := h.commands

theorem Framed.withLength (h : Framed s t written cells) (hw : .length ∈ written) (v : Halfword) :
    Framed s (t.withLength v) written cells where
  registers r hr := by
    cases r with
    | length => exact absurd hw hr
    | _ => exact h.registers _ hr
  cells := h.cells
  commands := h.commands

theorem Framed.withCounter (h : Framed s t written cells) (hw : .internalCounter ∈ written) (n : Nat) :
    Framed s (t.withCounter n) written cells where
  registers r hr := by
    cases r with
    | internalCounter => exact absurd hw hr
    | _ => exact h.registers _ hr
  cells := h.cells
  commands := h.commands

theorem Framed.withDataCounter (h : Framed s t written cells) (hw : .dataLengthCounter ∈ written) (v : Halfword) :
    Framed s (t.withDataCounter v) written cells where
  registers r hr := by
    cases r with
    | dataLengthCounter => exact absurd hw hr
    | _ => exact h.registers _ hr
  cells := h.cells
  commands := h.commands

/-- MemRead of a cell looks at the capacity and at that cell only. -/
theorem memRead_congr_cell {a : Nat} (hc : t.capacity = s.capacity)
    (hd : Memory.read t.data a = Memory.read s.data a) : memRead t a = memRead s a := by
  simp only [memRead, hc, hd]

/-- A new buffer that differs in the given cells only. -/
theorem framed_withData {m : Memory} (hw : .data ∈ written)
    (hm : ∀ a, ¬cells a → Memory.read m a = Memory.read s.data a) : Framed s (s.withData m) written cells where
  registers r hr := by
    cases r with
    | data => exact absurd hw hr
    | _ => rfl
  cells a ha := memRead_congr_cell rfl (hm a ha)
  commands := rfl

/-- Both resets and the builders write every register, so their frame is the cells and the commands. -/
theorem framed_of_all_written
    (hc : ∀ a, ¬cells a → memRead t a = memRead s a) (hcmd : t.commands = s.commands) :
    Framed s t [.header, .checksum, .request, .response, .length, .data, .internalCounter, .dataLengthCounter, .status]
      cells where
  registers r hr := by cases r <;> simp at hr
  cells := hc
  commands := hcmd

/-- The lazy reset leaves the buffer alone (43_reset_access.md R151). -/
theorem clearFraming_framed (s : State) :
    Framed s s.clearFraming
      [.header, .checksum, .request, .response, .length, .internalCounter, .dataLengthCounter, .status] cells where
  registers r hr := by
    cases r with
    | data => exact fun _ => rfl
    | _ => simp at hr
  cells _ _ := rfl
  commands := rfl

theorem appendPayload_framed {q : List Byte} (h : appendPayload q s = .next t) :
    Framed s t [.length, .data, .status]
      (fun a => q.length + s.length.toNat ≤ s.capacity.val ∧ s.length.toNat ≤ a ∧ a < s.length.toNat + q.length) := by
  obtain ⟨-, rfl⟩ | ⟨hfit, m, rfl, -, -, hout, -⟩ := appendPayload_next h
  · exact (Framed.refl s).settled (by simp) _
  · refine ((framed_withData (by simp) fun a ha => hout a ?_).withLength (by simp) _).settled (by simp) _
    omega

theorem commitFrame_framed (h : commitFrame s = .next t) : Framed s t [.checksum, .header] cells := by
  obtain ⟨-, -, rfl⟩ := commitFrame_next h
  exact (((Framed.refl s).withChecksum (by simp) _).withHeader (by simp) _).answer _ _ _

theorem buildFrame_framed {a b : Halfword} {q : List Byte} (h : buildFrame a b q s = .next t) :
    Framed s t [.header, .checksum, .request, .response, .length, .data, .internalCounter, .dataLengthCounter, .status]
      (fun k => q.length ≤ s.capacity.val ∧ k < q.length) := by
  obtain ⟨-, rfl⟩ | ⟨hfit, -, et, -, -, hout, -⟩ := buildFrame_next h
  · exact framed_of_all_written (fun _ _ => rfl) rfl
  · refine framed_of_all_written (fun k hk => ?_) (by rw [et])
    exact memRead_congr_cell (buildFrame_capacity h) (hout k (by omega))

theorem execBytes_framed (h : execBytes s = .next t) : Framed s t written cells := by
  obtain ⟨-, rfl⟩ := execBytes_next h
  exact (Framed.refl s).answer _ _ _

theorem execGetByte_framed (h : execGetByte s = .next t) : Framed s t [.internalCounter, .status] cells := by
  obtain ⟨-, b, -, rfl⟩ | ⟨-, rfl⟩ := execGetByte_next h
  · exact (((Framed.refl s).withCounter (by simp) _).withStatus (by simp) _).answer _ _ _
  · exact ((Framed.refl s).withCounter (by simp) _).settled (by simp) _

theorem execGetData_framed {a : Halfword} (h : execGetData a s = .next t) : Framed s t written cells := by
  obtain ⟨-, b, -, rfl⟩ | ⟨-, v, rfl⟩ := execGetData_next h
  · exact (Framed.refl s).answer _ _ _
  · exact (Framed.refl s).drawn.answer _ _ _

/-! ### CONSTRUCT -/

theorem status_mem_constructWrites (p : Nat) : .status ∈ constructWrites p := by
  unfold constructWrites
  split <;> simp

theorem internalCounter_mem_constructWrites (p : Nat) : .internalCounter ∈ constructWrites p := by
  unfold constructWrites
  split <;> simp

theorem constructWrites_payload {p : Nat} (hp : 10 ≤ p) :
    constructWrites p = [.data, .internalCounter, .dataLengthCounter, .status] := by
  obtain ⟨n, rfl⟩ := Nat.exists_eq_add_of_le' hp
  rfl

/-- `length` is written at positions 8 and 9 only (42_inbound.md R142). -/
theorem length_mem_constructWrites {p : Nat} (h : .length ∈ constructWrites p) : p = 8 ∨ p = 9 := by
  unfold constructWrites at h
  split at h <;> simp at h ⊢

/-- `data_length_counter` is written from position 10 on only (42_inbound.md R142). -/
theorem dataLengthCounter_mem_constructWrites {p : Nat} (h : .dataLengthCounter ∈ constructWrites p) : 10 ≤ p := by
  by_contra hp
  have : p ≤ 9 := by omega
  interval_cases p <;> simp [constructWrites] at h

/-- Storing a byte in its lane writes the register that 42_inbound.md R142 gives the position. -/
theorem laneStored_framed (b : Byte) (s : State) :
    Framed s (laneStored b s) (constructWrites s.internalCounter) cells := by
  unfold laneStored
  split <;> rename_i hp
  · exact (Framed.refl s).withHeader (by simp [hp, constructWrites]) _
  · exact (Framed.refl s).withHeader (by simp [hp, constructWrites]) _
  · exact (Framed.refl s).withChecksum (by simp [hp, constructWrites]) _
  · exact (Framed.refl s).withChecksum (by simp [hp, constructWrites]) _
  · exact (Framed.refl s).withRequest (by simp [hp, constructWrites]) _
  · exact (Framed.refl s).withRequest (by simp [hp, constructWrites]) _
  · exact (Framed.refl s).withResponse (by simp [hp, constructWrites]) _
  · exact (Framed.refl s).withResponse (by simp [hp, constructWrites]) _
  · exact (Framed.refl s).withLength (by simp [hp, constructWrites]) _
  · exact (Framed.refl s).withLength (by simp [hp, constructWrites]) _
  · exact Framed.refl s

theorem execConstruct_field_framed {b : Byte} (hp : s.internalCounter ≤ 9) (h : execConstruct b s = .next t) :
    Framed s t (constructWrites s.internalCounter) cells := by
  have hs := status_mem_constructWrites s.internalCounter
  have hc := internalCounter_mem_constructWrites s.internalCounter
  obtain ⟨-, -, rfl⟩ | ⟨-, -, rfl⟩ | ⟨-, -, rfl⟩ | ⟨-, -, st, -, rfl⟩ := execConstruct_field_next hp h
  · exact ((Framed.refl s).withCounter hc _).settled hs _
  · exact ((laneStored_framed b s).withCounter hc _).settled hs _
  · exact (laneStored_framed b s).settled hs _
  · exact (laneStored_framed b s).settled hs _

/-- Storing a payload byte writes the cell at `data_length_counter` and that counter (42_inbound.md R138). -/
theorem byteStored_framed {b : Byte} (hd : .data ∈ written) (hn : .dataLengthCounter ∈ written)
    (hcell : cells s.dataLengthCounter.toNat) : Framed s (byteStored b s) written cells := by
  refine (framed_withData hd fun a ha => ?_).withDataCounter hn _
  exact Memory.read_write_other s.data b fun e => ha (e ▸ hcell)

theorem execConstruct_payload_framed {b : Byte} (hp : 10 ≤ s.internalCounter) (h : execConstruct b s = .next t) :
    Framed s t [.data, .internalCounter, .dataLengthCounter, .status] (writesCell (.construct b) s) := by
  obtain ⟨-, rfl⟩ | ⟨hd, hi, -, -, hend⟩ := execConstruct_payload_next hp h
  · exact (Framed.refl s).settled (by simp) _
  · have hb : Framed s (byteStored b s) [.data, .internalCounter, .dataLengthCounter, .status]
        (writesCell (.construct b) s) := byteStored_framed (by simp) (by simp) ⟨hp, hi, hd, rfl⟩
    obtain ⟨-, rfl⟩ | ⟨-, -, st, -, rfl⟩ := hend
    · exact (hb.withCounter (by simp) _).settled (by simp) _
    · exact hb.settled (by simp) _

theorem execConstruct_framed {b : Byte} (h : execConstruct b s = .next t) :
    Framed s t (constructWrites s.internalCounter) (writesCell (.construct b) s) := by
  rcases Nat.lt_or_ge s.internalCounter 10 with hp | hp
  · exact execConstruct_field_framed (Nat.le_of_lt_succ hp) h
  · rw [constructWrites_payload hp]
    exact execConstruct_payload_framed hp h

/-! ### All operations -/

/-- Every operation writes only the registers and the cells that its lists give it. -/
theorem exec_framed {i : Instr} (h : exec i s = .next t) : Framed s t (writes i s) (writesCell i s) := by
  cases i with
  | reset =>
    cases h
    exact framed_of_all_written (fun a ha => absurd trivial ha) rfl
  | resetLazy =>
    cases h
    exact (clearFraming_framed s).settled (by simp) _
  | setRequest a =>
    cases h
    exact ((Framed.refl s).withRequest (by simp [writes]) a).answer _ _ _
  | setResponse a =>
    cases h
    exact ((Framed.refl s).withResponse (by simp [writes]) a).answer _ _ _
  | crc16 _ | getRequest | getResponse | getLength | getChecksum | getStatus =>
    cases h
    exact (Framed.refl s).answer _ _ _
  | addData q => exact appendPayload_framed h
  | pack => exact commitFrame_framed h
  | packData a q => exact buildFrame_framed h
  | packError a b q => exact buildFrame_framed h
  | packId q => exact buildFrame_framed h
  | bytes => exact execBytes_framed h
  | getByte => exact execGetByte_framed h
  | construct b => exact execConstruct_framed h
  | getData a => exact execGetData_framed h

/-! The frame for the three registers whose rules need it. -/

theorem exec_status_kept {i : Instr} (h : exec i s = .next t) (hw : .status ∉ writes i s) : t.status = s.status :=
  (exec_framed h).registers _ hw

theorem exec_length_kept {i : Instr} (h : exec i s = .next t) (hw : .length ∉ writes i s) : t.length = s.length :=
  (exec_framed h).registers _ hw

theorem exec_dataLengthCounter_kept {i : Instr} (h : exec i s = .next t) (hw : .dataLengthCounter ∉ writes i s) :
    t.dataLengthCounter = s.dataLengthCounter :=
  (exec_framed h).registers _ hw

end Sys2Proof.Machine
end

section
/-! SUPPORT. The status register (10_state.md R29): which values an operation writes to it, and that no operation but
GET_STATUS depends on it. -/

namespace Sys2Proof.Machine

variable {s t : State}

/-- An operation without listed values does not write the status register. -/
theorem status_not_mem_writes {i : Instr} (s : State) (h : statusValues i = []) : .status ∉ writes i s := by
  cases i <;> simp [statusValues, writes] at h ⊢

theorem appendPayload_status {q : List Byte} (h : appendPayload q s = .next t) :
    t.status ∈ [Status.ok, .packetOverflow] := by
  obtain ⟨-, rfl⟩ | ⟨-, m, rfl, -⟩ := appendPayload_next h <;> simp

theorem buildFrame_status {a b : Halfword} {q : List Byte} (h : buildFrame a b q s = .next t) :
    t.status ∈ [Status.ok, .packetOverflow] := by
  obtain ⟨-, rfl⟩ | ⟨-, -, et, -⟩ := buildFrame_next h
  · simp [unbuiltFrame]
  · simp [congrArg State.status et]

theorem execGetByte_status (h : execGetByte s = .next t) : t.status ∈ [Status.ok, .getByteFinished] := by
  obtain ⟨-, b, -, rfl⟩ | ⟨-, rfl⟩ := execGetByte_next h <;> simp

theorem completionStatus_mem {st : Status} (b : Byte) (h : completionStatus st) :
    st ∈ statusValues (.construct b) := by
  obtain rfl | rfl := h <;> simp [statusValues]

theorem execConstruct_status {b : Byte} (h : execConstruct b s = .next t) :
    t.status ∈ statusValues (.construct b) := by
  rcases Nat.lt_or_ge s.internalCounter 10 with hp | hp
  · obtain ⟨-, -, rfl⟩ | ⟨-, -, rfl⟩ | ⟨-, -, rfl⟩ | ⟨-, -, st, hst, rfl⟩ :=
      execConstruct_field_next (Nat.le_of_lt_succ hp) h
    · simp [statusValues]
    · simp [statusValues]
    · simp [statusValues]
    · exact completionStatus_mem b hst
  · obtain ⟨-, rfl⟩ | ⟨-, -, -, -, ⟨-, rfl⟩ | ⟨-, -, st, hst, rfl⟩⟩ := execConstruct_payload_next hp h
    · simp [statusValues]
    · simp [statusValues]
    · exact completionStatus_mem b hst

/-- An operation with listed values writes one of them. -/
theorem exec_status_mem {i : Instr} (h : exec i s = .next t) (hv : statusValues i ≠ []) :
    t.status ∈ statusValues i := by
  cases i with
  | reset | resetLazy =>
    cases h
    simp [statusValues]
  | addData q => exact appendPayload_status h
  | packData a q => exact buildFrame_status h
  | packError a b q => exact buildFrame_status h
  | packId q => exact buildFrame_status h
  | getByte => exact execGetByte_status h
  | construct b => exact execConstruct_status h
  | crc16 _ | setRequest _ | setResponse _ | pack | bytes | getRequest | getResponse | getLength | getChecksum
  | getStatus | getData _ => exact absurd rfl hv

/-! ### Independence of the status before -/

/-- What an answer is when its next state, if there is one, has another status. -/
def answerWithStatus (o : Answer) (x : Status) : Answer := andThen o fun t => .next (t.withStatus x)

@[simp] theorem memRead_withStatus (s : State) (x : Status) (a : Nat) : memRead (s.withStatus x) a = memRead s a := rfl

@[simp] theorem frameCrc_withStatus (s : State) (x : Status) : frameCrc (s.withStatus x) = frameCrc s :=
  frameCrc_congr rfl rfl rfl fun _ _ => rfl

@[simp] theorem image_withStatus (s : State) (x : Status) : image (s.withStatus x) = image s := by
  have hp : payload (s.withStatus x) = payload s := readCells_congr fun _ _ _ => rfl
  rw [image, image, hp]
  rfl

@[simp] theorem imageByte_withStatus (s : State) (x : Status) (p : Nat) :
    imageByte (s.withStatus x) p = imageByte s p := rfl

theorem commitFrame_withStatus (s : State) (x : Status) :
    commitFrame (s.withStatus x) = answerWithStatus (commitFrame s) x := by
  rw [commitFrame, commitFrame, frameCrc_withStatus]
  cases frameCrc s <;> rfl

theorem execBytes_withStatus (s : State) (x : Status) :
    execBytes (s.withStatus x) = answerWithStatus (execBytes s) x := by
  rw [execBytes, execBytes, image_withStatus]
  cases image s <;> rfl

theorem execGetData_withStatus (a : Halfword) (s : State) (x : Status) :
    execGetData a (s.withStatus x) = answerWithStatus (execGetData a s) x := by
  rw [execGetData, execGetData, memRead_withStatus, State.withStatus_length]
  split
  · cases memRead s a.toNat <;> rfl
  · rfl

theorem execGetByte_withStatus (s : State) (x : Status) : execGetByte (s.withStatus x) = execGetByte s := by
  rw [execGetByte, execGetByte, imageByte_withStatus]
  rfl

theorem appendPayload_withStatus (q : List Byte) (s : State) (x : Status) :
    appendPayload q (s.withStatus x) = appendPayload q s := by
  by_cases hc : s.capacity.val < q.length + s.length.toNat
  · rw [appendPayload_overflow hc, appendPayload_overflow (s := s.withStatus x) hc]
    rfl
  · obtain ⟨m, e, -⟩ := writeCells_spec (s := s) (a := s.length.toNat) (q := q) (by omega)
    have e' : writeCells (s.withStatus x) s.length.toNat q = some ((s.withStatus x).withData m) :=
      writeCells_congr e rfl rfl
    simp only [appendPayload, State.withStatus_capacity, State.withStatus_length, e, e', orRefuse_some]
    rfl

/-- A builder begins with the lazy reset, which clears the status. -/
theorem buildFrame_withStatus (a b : Halfword) (q : List Byte) (s : State) (x : Status) :
    buildFrame a b q (s.withStatus x) = buildFrame a b q s := rfl

theorem completeFrame_withStatus (s : State) (x : Status) : completeFrame (s.withStatus x) = completeFrame s := by
  rw [completeFrame, completeFrame, validate, validate, frameCrc_withStatus]
  rfl

theorem lengthDecoded_withStatus (s : State) (x : Status) : lengthDecoded (s.withStatus x) = lengthDecoded s := by
  rw [lengthDecoded, lengthDecoded, completeFrame_withStatus]
  rfl

theorem payloadStored_withStatus (s : State) (x : Status) : payloadStored (s.withStatus x) = payloadStored s := by
  rw [payloadStored, payloadStored, completeFrame_withStatus]
  rfl

theorem memWrite_withStatus (s : State) (x : Status) (a : Nat) (v : Byte) :
    memWrite (s.withStatus x) a v = (memWrite s a v).map (·.withStatus x) := by
  by_cases ha : a < s.capacity.val
  · rw [memWrite_of_lt v ha, memWrite_of_lt (s := s.withStatus x) v ha]
    rfl
  · rw [memWrite_of_not_lt v ha, memWrite_of_not_lt (s := s.withStatus x) v ha]
    rfl

theorem constructPayload_withStatus (b : Byte) (s : State) (x : Status) :
    constructPayload b (s.withStatus x) = constructPayload b s := by
  simp only [constructPayload, State.withStatus_length, State.withStatus_dataLengthCounter,
    State.withStatus_internalCounter, memWrite_withStatus]
  split
  · rfl
  · cases memWrite s s.dataLengthCounter.toNat b with
    | none => rfl
    | some u => exact payloadStored_withStatus (u.withDataCounter _) x

theorem execConstruct_withStatus (b : Byte) (s : State) (x : Status) :
    execConstruct b (s.withStatus x) = execConstruct b s := by
  simp only [execConstruct, State.withStatus_internalCounter]
  split
  iterate 9 rfl
  · exact lengthDecoded_withStatus (s.withLength (withHi8 s.length b)) x
  · exact constructPayload_withStatus b s x

/-- The operations that leave the status alone carry another status through; the others forget it. -/
theorem exec_withStatus {i : Instr} (hi : i ≠ .getStatus) (s : State) (x : Status) :
    exec i (s.withStatus x) = if statusValues i = [] then answerWithStatus (exec i s) x else exec i s := by
  cases i with
  | addData q => exact appendPayload_withStatus q s x
  | packData a q => exact buildFrame_withStatus a _ q s x
  | packError a b q => exact buildFrame_withStatus a b q s x
  | packId q => exact buildFrame_withStatus _ _ q s x
  | getByte => exact execGetByte_withStatus s x
  | construct b => exact execConstruct_withStatus b s x
  | pack => exact commitFrame_withStatus s x
  | bytes => exact execBytes_withStatus s x
  | getData a => exact execGetData_withStatus a s x
  | getStatus => exact absurd rfl hi
  | reset | resetLazy | crc16 _ | setRequest _ | setResponse _ | getRequest | getResponse | getLength | getChecksum =>
    rfl

end Sys2Proof.Machine
end

section
/-! SUPPORT. The two bounds of 10_state.md R31, INV1 and INV2: each operation that writes `length` or
`data_length_counter` keeps them, and the frame says that no other can break them. -/

namespace Sys2Proof.Machine

variable {s t : State}

theorem lengthFits_of_length_zero (h : s.length = 0x0000#16) : s.lengthFits := by
  simp [State.lengthFits, h]

theorem counterWithinLength_of_counter_zero (h : s.dataLengthCounter = 0x0000#16) : s.counterWithinLength := by
  simp [State.counterWithinLength, h]

/-- An operation that does not write `length` keeps INV1. -/
theorem lengthFits_of_length_kept {i : Instr} (hs : s.lengthFits) (h : exec i s = .next t)
    (hw : .length ∉ writes i s) : t.lengthFits := by
  rw [State.lengthFits, exec_length_kept h hw, exec_capacity h]
  exact hs

/-- An operation that writes neither of the two registers keeps INV2. -/
theorem counterWithinLength_of_kept {i : Instr} (hs : s.counterWithinLength) (h : exec i s = .next t)
    (hl : .length ∉ writes i s) (hd : .dataLengthCounter ∉ writes i s) : t.counterWithinLength := by
  rw [State.counterWithinLength, exec_length_kept h hl, exec_dataLengthCounter_kept h hd]
  exact hs

theorem appendPayload_lengthFits {q : List Byte} (hs : s.lengthFits) (h : appendPayload q s = .next t) :
    t.lengthFits := by
  obtain ⟨-, rfl⟩ | ⟨hfit, m, rfl, -⟩ := appendPayload_next h
  · exact hs
  · have hn := append_length_toNat hfit
    simp only [State.lengthFits, State.settled_length, State.withLength_length, State.settled_capacity,
      State.withLength_capacity, State.withData_capacity]
    omega

/-- An append only lengthens the payload: the sum does not wrap (41_outbound.md R112). -/
theorem appendPayload_counterWithinLength {q : List Byte} (hs : s.counterWithinLength)
    (h : appendPayload q s = .next t) : t.counterWithinLength := by
  obtain ⟨-, rfl⟩ | ⟨hfit, m, rfl, -⟩ := appendPayload_next h
  · exact hs
  · have hn := append_length_toNat hfit
    simp only [State.counterWithinLength, State.settled_length, State.withLength_length,
      State.settled_dataLengthCounter, State.withLength_dataLengthCounter, State.withData_dataLengthCounter] at hs ⊢
    omega

theorem buildFrame_lengthFits {a b : Halfword} {q : List Byte} (h : buildFrame a b q s = .next t) :
    t.lengthFits := by
  obtain ⟨-, rfl⟩ | ⟨hfit, -, et, -⟩ := buildFrame_next h
  · exact lengthFits_of_length_zero rfl
  · rw [State.lengthFits, congrArg State.length et, buildFrame_capacity h, BitVec.toNat_ofNat]
    exact (Nat.mod_le _ _).trans hfit

theorem buildFrame_counterWithinLength {a b : Halfword} {q : List Byte} (h : buildFrame a b q s = .next t) :
    t.counterWithinLength := by
  obtain ⟨-, rfl⟩ | ⟨-, -, et, -⟩ := buildFrame_next h
  · exact counterWithinLength_of_counter_zero rfl
  · exact counterWithinLength_of_counter_zero (congrArg State.dataLengthCounter et)

/-- From position 10 on a byte is stored, and counted, only while the counter is below `length` (42_inbound.md R138). -/
theorem execConstruct_payload_counterWithinLength {b : Byte} (hp : 10 ≤ s.internalCounter)
    (hs : s.counterWithinLength) (h : execConstruct b s = .next t) : t.counterWithinLength := by
  obtain ⟨-, rfl⟩ | ⟨hd, -, -, hn, hend⟩ := execConstruct_payload_next hp h
  · exact hs
  · have hb : (byteStored b s).counterWithinLength := by
      change (s.dataLengthCounter + 1#16).toNat ≤ s.length.toNat
      omega
    obtain ⟨-, rfl⟩ | ⟨-, -, st, -, rfl⟩ := hend
    · exact hb
    · exact hb

/-- Below position 10 the counter stays, and `length` is written at positions 8 and 9 only. -/
theorem execConstruct_field_counterWithinLength {b : Byte} (hp : s.internalCounter ≤ 9)
    (hs : s.counterWithinLength) (h : exec (.construct b) s = .next t)
    (h0 : s.internalCounter = 8 ∨ s.internalCounter = 9 → s.dataLengthCounter = 0x0000#16) :
    t.counterWithinLength := by
  have hd : .dataLengthCounter ∉ writes (.construct b) s := fun hm => by
    have := dataLengthCounter_mem_constructWrites hm
    omega
  by_cases h89 : s.internalCounter = 8 ∨ s.internalCounter = 9
  · exact counterWithinLength_of_counter_zero ((exec_dataLengthCounter_kept h hd).trans (h0 h89))
  · exact counterWithinLength_of_kept hs h (fun hm => h89 (length_mem_constructWrites hm)) hd

end Sys2Proof.Machine
end

section
/-! SUPPORT. The values after power-on and after either reset (10_state.md R35). -/

namespace Sys2Proof.Machine

/-- An empty buffer reads 0x00 in every cell that exists (10_state.md R35). -/
theorem memRead_of_data_nil {s : State} {a : Nat} (hd : s.data = []) (ha : a < s.capacity.val) :
    memRead s a = some 0x00#8 := by
  rw [memRead_of_lt ha, hd]
  rfl

theorem powerOn_registersReset (cap : Capacity) : (State.powerOn cap).registersReset :=
  ⟨rfl, rfl, rfl, rfl, rfl, rfl, rfl, rfl⟩

/-- Both resets start from the cleared registers (43_reset_access.md R150, R151). -/
theorem clearFraming_registersReset (s : State) : s.clearFraming.registersReset :=
  ⟨rfl, rfl, rfl, rfl, rfl, rfl, rfl, rfl⟩

theorem headerOk_of_header_zero {s : State} (h : s.header = 0x0000#16) : s.headerOk := by
  rw [State.headerOk, h]
  exact ⟨Or.inl (by decide), Or.inl (by decide)⟩

/-- The buffer of a power-on state lists no cell, its counter is 0 and its header 0x0000. -/
theorem powerOn_shapeOk (cap : Capacity) : (State.powerOn cap).shapeOk :=
  ⟨rfl, rfl, Nat.zero_le _, headerOk_of_header_zero rfl⟩

end Sys2Proof.Machine
end

section
/-! PROOFS. The statements of 10_state.md. -/

namespace Sys2Proof.Machine

/-- Settles O40: the frame of every operation, and that CAPACITY is kept. -/
theorem onlyTheListedWritersWrite : Obligations.OnlyTheListedWritersWrite := by
  intro i s t h
  obtain ⟨hreg, hcells, hcmd⟩ := exec_framed h
  exact ⟨hreg, hcells, exec_capacity h, hcmd⟩

/-- Settles O41: without listed values the status is outside the frame's registers; with them, one of them is written. -/
theorem statusTakesOnlyItsListedValues : Obligations.StatusTakesOnlyItsListedValues :=
  fun _ s _ h => ⟨fun hv => exec_status_kept h (status_not_mem_writes s hv), exec_status_mem h⟩

/-- Settles O43: both halves read off how an operation answers from a state with another status. -/
theorem statusSteersNoOperation : Obligations.StatusSteersNoOperation := by
  intro i s x hi
  rw [exec_withStatus hi]
  constructor
  · intro t h
    rw [h]
    split <;> rfl
  · intro r h
    rw [h]
    split <;> rfl

/-- Settles O48: `length` is written by the resets and the builders, which leave one that fits, by an append that fits,
and by CONSTRUCT at the two excepted positions. -/
theorem lengthBoundIsKept : Obligations.LengthBoundIsKept := by
  intro i s t hs h hex
  cases i with
  | reset | resetLazy =>
    cases h
    exact lengthFits_of_length_zero rfl
  | addData q => exact appendPayload_lengthFits hs h
  | packData a q => exact buildFrame_lengthFits h
  | packError a b q => exact buildFrame_lengthFits h
  | packId q => exact buildFrame_lengthFits h
  | construct b =>
    obtain ⟨h8, h9⟩ := hex b rfl
    exact lengthFits_of_length_kept hs h fun hm => (length_mem_constructWrites hm).elim h8 h9
  | crc16 _ | setRequest _ | setResponse _ | pack | bytes | getByte | getRequest | getResponse | getLength
  | getChecksum | getStatus | getData _ => exact lengthFits_of_length_kept hs h (by simp [writes])

/-- Settles O49: the resets and the builders clear the counter, an append only lengthens the payload, and CONSTRUCT
counts a byte only below `length`. -/
theorem dataCounterBoundIsKept : Obligations.DataCounterBoundIsKept := by
  intro i s t hs h hex
  cases i with
  | reset | resetLazy =>
    cases h
    exact counterWithinLength_of_counter_zero rfl
  | addData q => exact appendPayload_counterWithinLength hs h
  | packData a q => exact buildFrame_counterWithinLength h
  | packError a b q => exact buildFrame_counterWithinLength h
  | packId q => exact buildFrame_counterWithinLength h
  | construct b =>
    rcases Nat.lt_or_ge s.internalCounter 10 with hp | hp
    · exact execConstruct_field_counterWithinLength (Nat.le_of_lt_succ hp) hs h (hex b rfl)
    · exact execConstruct_payload_counterWithinLength hp hs h
  | crc16 _ | setRequest _ | setResponse _ | pack | bytes | getByte | getRequest | getResponse | getLength
  | getChecksum | getStatus | getData _ =>
    exact counterWithinLength_of_kept hs h (by simp [writes]) (by simp [writes])

/-- Settles O6: power-on and RESET list no cell, RESET_LAZY keeps them all. -/
theorem resetsLeaveTheResetValues : Obligations.ResetsLeaveTheResetValues :=
  ⟨fun cap => ⟨powerOn_registersReset cap, fun _ ha => memRead_of_data_nil (s := .powerOn cap) rfl ha⟩,
    fun s => ⟨_, rfl, clearFraming_registersReset s, fun _ ha => memRead_of_data_nil rfl ha⟩,
    fun s => ⟨_, rfl, clearFraming_registersReset s, fun _ => rfl⟩⟩

/-- Settles O47: the reset state is a power-on state. -/
theorem powerOnHasTheStateShape : Obligations.PowerOnHasTheStateShape :=
  ⟨powerOn_shapeOk, powerOn_shapeOk _⟩

end Sys2Proof.Machine
end

section
/-! SUPPORT. The shape of the state (20_memory.md R50, 10_state.md R21, R27): one rule for each update that can touch it,
then one lemma for each operation with cases, then all operations together. The other updates change nothing the shape
looks at, so the shape before them is the shape after them. -/

namespace Sys2Proof.Machine

variable {s t : State}

theorem headerLaneOk_magicByte : headerLaneOk Config.magicByte := Or.inr rfl

theorem headerOk_of_header_magic (h : s.header = Config.magic) : s.headerOk := by
  rw [State.headerOk, h]
  exact ⟨Or.inr (by decide), Or.inr (by decide)⟩

theorem headerOk_withLo8 {b : Byte} (hs : s.headerOk) (hb : headerLaneOk b) :
    (s.withHeader (withLo8 s.header b)).headerOk := by
  obtain ⟨-, hhi⟩ := hs
  simp [State.headerOk, hb, hhi]

theorem headerOk_withHi8 {b : Byte} (hs : s.headerOk) (hb : headerLaneOk b) :
    (s.withHeader (withHi8 s.header b)).headerOk := by
  obtain ⟨hlo, -⟩ := hs
  simp [State.headerOk, hb, hlo]

theorem State.shapeOk.withCounter (hs : s.shapeOk) {n : Nat} (hn : n ≤ 10 + s.length.toNat) :
    (s.withCounter n).shapeOk := by
  obtain ⟨hwf, hin, -, hhd⟩ := hs
  exact ⟨hwf, hin, hn, hhd⟩

/-- A length that does not shrink leaves the counter within its bound. -/
theorem State.shapeOk.withLength (hs : s.shapeOk) {v : Halfword} (hv : s.length.toNat ≤ v.toNat) :
    (s.withLength v).shapeOk := by
  obtain ⟨hwf, hin, hic, hhd⟩ := hs
  exact ⟨hwf, hin, hic.trans (Nat.add_le_add_left hv _), hhd⟩

theorem State.shapeOk.withData (hs : s.shapeOk) {m : Memory} (hwf : Memory.wf m = true)
    (hin : Memory.within m s.capacity.val = true) : (s.withData m).shapeOk := by
  obtain ⟨-, -, hic, hhd⟩ := hs
  exact ⟨hwf, hin, hic, hhd⟩

theorem State.shapeOk.withHeader (hs : s.shapeOk) {v : Halfword} (hv : (s.withHeader v).headerOk) :
    (s.withHeader v).shapeOk := by
  obtain ⟨hwf, hin, hic, -⟩ := hs
  exact ⟨hwf, hin, hic, hv⟩

/-- The lazy reset clears counter and header and keeps the buffer (43_reset_access.md R151). -/
theorem clearFraming_shapeOk (hs : s.shapeOk) : s.clearFraming.shapeOk := by
  obtain ⟨hwf, hin, -, -⟩ := hs
  exact ⟨hwf, hin, Nat.zero_le _, headerOk_of_header_zero rfl⟩

theorem appendPayload_shapeOk {q : List Byte} (hs : s.shapeOk) (h : appendPayload q s = .next t) : t.shapeOk := by
  obtain ⟨-, rfl⟩ | ⟨hfit, m, rfl, hwf, hin, -⟩ := appendPayload_next h
  · exact hs
  · obtain ⟨hw, hi, -, -⟩ := id hs
    have hgrow : s.length.toNat ≤ (s.length + BitVec.ofNat 16 q.length).toNat := by
      rw [append_length_toNat hfit]
      exact Nat.le_add_right _ _
    exact (hs.withData (hwf hw) (hin hi)).withLength hgrow

theorem commitFrame_shapeOk (hs : s.shapeOk) (h : commitFrame s = .next t) : t.shapeOk := by
  obtain ⟨-, -, rfl⟩ := commitFrame_next h
  exact hs.withHeader (headerOk_of_header_magic rfl)

/-- A builder leaves counter 0, the magic header if the payload fits and a cleared one if not. -/
theorem buildFrame_shapeOk {a b : Halfword} {q : List Byte} (hs : s.shapeOk) (h : buildFrame a b q s = .next t) :
    t.shapeOk := by
  obtain ⟨-, rfl⟩ | ⟨-, -, et, hwf, hin, -⟩ := buildFrame_next h
  · exact clearFraming_shapeOk hs
  · obtain ⟨hw, hi, -, -⟩ := hs
    rw [et]
    exact ⟨hwf hw, hin hi, Nat.zero_le _, headerOk_of_header_magic rfl⟩

theorem execBytes_shapeOk (hs : s.shapeOk) (h : execBytes s = .next t) : t.shapeOk := by
  obtain ⟨-, rfl⟩ := execBytes_next h
  exact hs

/-- The cursor moves on only while it is inside the image (41_outbound.md R118). -/
theorem execGetByte_shapeOk (hs : s.shapeOk) (h : execGetByte s = .next t) : t.shapeOk := by
  obtain ⟨hlt, b, -, rfl⟩ | ⟨-, rfl⟩ := execGetByte_next h
  · exact hs.withCounter hlt
  · exact hs.withCounter (Nat.zero_le _)

theorem execGetData_shapeOk {a : Halfword} (hs : s.shapeOk) (h : execGetData a s = .next t) : t.shapeOk := by
  obtain ⟨-, b, -, rfl⟩ | ⟨-, v, rfl⟩ := execGetData_next h
  · exact hs
  · exact hs

/-! ### CONSTRUCT -/

/-- Only positions 0 and 1 write a header lane, and they store no byte but the magic one (42_inbound.md R131, R132). -/
theorem laneStored_headerOk {b : Byte} (hs : s.headerOk) (hb : s.internalCounter ≤ 1 → b = Config.magicByte) :
    (laneStored b s).headerOk := by
  have hlane (hp : s.internalCounter ≤ 1) : headerLaneOk b := hb hp ▸ headerLaneOk_magicByte
  unfold laneStored
  split
  · exact headerOk_withLo8 hs (hlane (by omega))
  · exact headerOk_withHi8 hs (hlane (by omega))
  iterate 9 exact hs

/-- Below position 10 the counter is within its bound whatever the length is, so positions 8 and 9 may write any. -/
theorem laneStored_shapeOk {b : Byte} (hs : s.shapeOk) (hp : s.internalCounter ≤ 9)
    (hb : s.internalCounter ≤ 1 → b = Config.magicByte) : (laneStored b s).shapeOk := by
  obtain ⟨hwf, hin, -, hhd⟩ := hs
  refine ⟨by rwa [laneStored_data], by rwa [laneStored_data, laneStored_capacity], ?_, laneStored_headerOk hhd hb⟩
  rw [laneStored_internalCounter]
  exact hp.trans (Nat.le_add_right_of_le (by decide))

theorem byteStored_shapeOk {b : Byte} (hs : s.shapeOk) (hcap : s.dataLengthCounter.toNat < s.capacity.val) :
    (byteStored b s).shapeOk := by
  obtain ⟨hwf, hin, -, -⟩ := id hs
  exact hs.withData (Memory.wf_write _ b hwf) (Memory.within_write b hin hcap)

theorem execConstruct_field_shapeOk {b : Byte} (hs : s.shapeOk) (hp : s.internalCounter ≤ 9)
    (h : execConstruct b s = .next t) : t.shapeOk := by
  obtain ⟨-, -, rfl⟩ | ⟨hb, -, rfl⟩ | ⟨h9, -, rfl⟩ | ⟨h9, -, st, -, rfl⟩ := execConstruct_field_next hp h
  · exact hs.withCounter (Nat.zero_le _)
  · have hn : s.internalCounter + 1 ≤ 10 + (laneStored b s).length.toNat := by omega
    exact (laneStored_shapeOk hs hp hb).withCounter hn
  · exact laneStored_shapeOk hs hp (by omega)
  · exact laneStored_shapeOk hs hp (by omega)

/-- From position 10 on the counter moves on only inside the frame, and a stored byte has a cell that exists
(42_inbound.md R138, R139). -/
theorem execConstruct_payload_shapeOk {b : Byte} (hs : s.shapeOk) (hp : 10 ≤ s.internalCounter)
    (h : execConstruct b s = .next t) : t.shapeOk := by
  obtain ⟨-, rfl⟩ | ⟨-, hin, hcap, -, hend⟩ := execConstruct_payload_next hp h
  · exact hs
  · have hb : (byteStored b s).shapeOk := byteStored_shapeOk hs hcap
    obtain ⟨-, rfl⟩ | ⟨-, -, st, -, rfl⟩ := hend
    · have hn : s.internalCounter + 1 ≤ 10 + s.length.toNat := by omega
      exact hb.withCounter hn
    · exact hb

theorem execConstruct_shapeOk {b : Byte} (hs : s.shapeOk) (h : execConstruct b s = .next t) : t.shapeOk := by
  rcases Nat.lt_or_ge s.internalCounter 10 with hp | hp
  · exact execConstruct_field_shapeOk hs (Nat.le_of_lt_succ hp) h
  · exact execConstruct_payload_shapeOk hs hp h

/-! ### All operations -/

/-- Every operation keeps the shape. -/
theorem exec_shapeOk {i : Instr} (hs : s.shapeOk) (h : exec i s = .next t) : t.shapeOk := by
  cases i with
  | reset =>
    cases h
    exact (clearFraming_shapeOk hs).withData rfl rfl
  | resetLazy =>
    cases h
    exact (clearFraming_shapeOk hs :)
  | addData q => exact appendPayload_shapeOk hs h
  | pack => exact commitFrame_shapeOk hs h
  | packData a q => exact buildFrame_shapeOk hs h
  | packError a b q => exact buildFrame_shapeOk hs h
  | packId q => exact buildFrame_shapeOk hs h
  | bytes => exact execBytes_shapeOk hs h
  | getByte => exact execGetByte_shapeOk hs h
  | construct b => exact execConstruct_shapeOk hs h
  | getData a => exact execGetData_shapeOk hs h
  | crc16 _ | setRequest _ | setResponse _ | getRequest | getResponse | getLength | getChecksum | getStatus =>
    cases h
    exact hs

end Sys2Proof.Machine
end

section
/-! PROOFS. The statements of 20_memory.md. -/

namespace Sys2Proof.Machine

/-- Settles O46: a step that goes on is idle or runs an operation, and every operation keeps the shape, which does not
look at the driver's commands. -/
theorem stepKeepsTheStateShape : Obligations.StepKeepsTheStateShape := by
  intro s t hs h
  obtain ⟨-, rfl⟩ | ⟨c, rest, i, -, -, he⟩ := step_next h
  · exact hs
  · exact exec_shapeOk (s := { s with commands := rest }) hs he

/-- Settles O16: read after write on the buffer's list, and both primitives look at CAPACITY first. -/
theorem memWriteIsReadBack : Obligations.MemWriteIsReadBack := by
  refine ⟨fun s a v ha hw => ⟨Memory.write s.data a v, memWrite_of_lt v ha, ?_, fun a' hne => ?_⟩,
    fun s a ha => ⟨_, memRead_of_lt ha⟩,
    fun s a v ha => ⟨memRead_of_not_lt (Nat.not_lt.2 ha), memWrite_of_not_lt v (Nat.not_lt.2 ha)⟩⟩
  · exact (memRead_of_lt (s := s.withData (Memory.write s.data a v)) ha).trans
      (congrArg some (Memory.read_write_same a v hw))
  · exact memRead_congr_cell rfl (Memory.read_write_other s.data v hne)

end Sys2Proof.Machine
end

section
/-! SUPPORT. The decoder and the encoder (30_encoding.md R79, R80, R83): a command's bytes spell it, an operation is what
its command decodes to, and the command an operation encodes to is the decoded one with its unused operands zeroed. -/

namespace Sys2Proof

/-- The byte layout of a command loses nothing (log 9). -/
@[simp] theorem Command.ofBytes_toBytes (c : Command) : Command.ofBytes c.toBytes = c := by
  obtain ⟨op, a, b, q⟩ := c
  simp [Command.ofBytes, Command.toBytes, leBytes]

/-- The decoder reads back every operation; of CONSTRUCT's operand it reads the low lane, where the byte stands. -/
@[simp] theorem decode_encode (i : Instr) : decode (encode i) = .instr i := by
  cases i with
  | construct b => simp [decode, encode]
  | _ => rfl

/-- The decoder accepts the codes of the table and refuses every other by name (30_encoding.md R79, R80). -/
theorem decode_cases (c : Command) :
    (opcodeDefined c.op = true ∧ ∃ i, decode c = .instr i) ∨
    (opcodeDefined c.op = false ∧ decode c = .unknownOperation c.op) := by
  unfold decode
  split
  case h_20 =>
    refine Or.inr ⟨?_, rfl⟩
    simp only [opcodeDefined, definedOpcodes, List.cons_append, List.nil_append, List.contains_eq_mem,
      List.mem_cons, List.not_mem_nil, or_false, decide_eq_false_iff_not, not_or]
    and_intros <;> assumption
  all_goals
    rename_i hop
    exact Or.inl ⟨by rw [hop]; rfl, _, rfl⟩

theorem decode_of_opcodeDefined {c : Command} (h : opcodeDefined c.op = true) : ∃ i, decode c = .instr i := by
  obtain ⟨-, hd⟩ | ⟨hn, -⟩ := decode_cases c
  · exact hd
  · simp [h] at hn

theorem decode_of_not_opcodeDefined {c : Command} (h : opcodeDefined c.op = false) :
    decode c = .unknownOperation c.op := by
  obtain ⟨hn, -⟩ | ⟨-, hd⟩ := decode_cases c
  · simp [h] at hn
  · exact hd

/-- The command with every operand bit that its operation ignores set to zero (30_encoding.md R83). -/
def Command.zeroUnused (c : Command) : Command where
  op := c.op
  a := if c.op = 0x30#8 then zext16 (lo8 c.a) else if usesA c.op then c.a else 0
  b := if usesB c.op then c.b else 0
  q := if usesQ c.op then c.q else []

/-- Encoding the decoded operation keeps the code and the operands it uses, and zeroes the rest. -/
theorem encode_of_decode {c : Command} {i : Instr} (h : decode c = .instr i) : encode i = c.zeroUnused := by
  obtain ⟨op, a, b, q⟩ := c
  unfold decode at h
  split at h
  case h_20 => cases h
  all_goals
    rename_i hop
    cases h
    cases hop
    rfl

/-- A halfword whose high lane is zero is its low lane. -/
theorem zext16_lo8 {v : Halfword} (h : v >>> 8 = 0#16) : zext16 (lo8 v) = v := by
  refine halfword_ext (lo8_zext16 _) ?_
  rw [hi8, hi8, h]
  ext i hi
  simp [zext16]

/-- A canonical command has nothing to zero (30_encoding.md R83). -/
theorem zeroUnused_of_canonical {c : Command} (h : c.canonical = true) : c.zeroUnused = c := by
  obtain ⟨op, a, b, q⟩ := c
  simp only [Command.canonical, unusedOperandsZero, Bool.and_eq_true, Bool.or_eq_true, beq_iff_eq,
    List.isEmpty_iff] at h
  obtain ⟨-, ⟨ha, hb⟩, hq⟩ := h
  have ha' : (if op = 0x30#8 then zext16 (lo8 a) else if usesA op then a else 0) = a := by
    simp only [unusedAZero, beq_iff_eq] at ha
    split_ifs at ha ⊢ with hop hu
    · exact zext16_lo8 (beq_iff_eq.1 ha)
    · rfl
    · have : a = 0#16 := by simpa [hu] using ha
      exact this.symm
  have hb' : (if usesB op then b else 0) = b := ite_eq_left_iff.2 fun hu => (hb.resolve_left hu).symm
  have hq' : (if usesQ op then q else []) = q := ite_eq_left_iff.2 fun hu => (hq.resolve_left hu).symm
  simp only [Command.zeroUnused, ha', hb', hq']

end Sys2Proof
end

section
/-! SUPPORT. The result output (30_encoding.md R81, R82): the status that each operation's result carries. -/

namespace Sys2Proof.Machine

variable {s t : State}

/-- The result output holds a result with the given status. -/
def State.answeredWith (s : State) (st : Status) : Prop := ∃ x, s.result = some x ∧ x.st = st

theorem answer_answeredWith (s : State) (st : Status) (v : Halfword) (r : Option (List Byte)) :
    (s.answer st v r).answeredWith st := ⟨_, rfl, rfl⟩

theorem settled_answeredWith_status (s : State) (st : Status) :
    (s.settled st).answeredWith (s.settled st).status := answer_answeredWith _ _ _ _

theorem appendPayload_answeredWith {q : List Byte} (h : appendPayload q s = .next t) : t.answeredWith t.status := by
  obtain ⟨-, rfl⟩ | ⟨-, m, rfl, -⟩ := appendPayload_next h <;> exact settled_answeredWith_status _ _

theorem buildFrame_answeredWith {a b : Halfword} {q : List Byte} (h : buildFrame a b q s = .next t) :
    t.answeredWith t.status := by
  obtain ⟨-, rfl⟩ | ⟨-, -, et, -⟩ := buildFrame_next h
  · exact ⟨_, rfl, rfl⟩
  · rw [et]
    exact ⟨_, rfl, rfl⟩

theorem execGetByte_answeredWith (h : execGetByte s = .next t) : t.answeredWith t.status := by
  obtain ⟨-, b, -, rfl⟩ | ⟨-, rfl⟩ := execGetByte_next h
  · exact answer_answeredWith _ _ _ _
  · exact settled_answeredWith_status _ _

theorem execConstruct_answeredWith {b : Byte} (h : execConstruct b s = .next t) : t.answeredWith t.status := by
  rcases Nat.lt_or_ge s.internalCounter 10 with hp | hp
  · obtain ⟨-, -, rfl⟩ | ⟨-, -, rfl⟩ | ⟨-, -, rfl⟩ | ⟨-, -, st, -, rfl⟩ :=
      execConstruct_field_next (Nat.le_of_lt_succ hp) h <;> exact settled_answeredWith_status _ _
  · obtain ⟨-, rfl⟩ | ⟨-, -, -, -, ⟨-, rfl⟩ | ⟨-, -, st, -, rfl⟩⟩ := execConstruct_payload_next hp h <;>
      exact settled_answeredWith_status _ _

/-- An operation with listed status values answers the status it writes. -/
theorem exec_answeredWith_status {i : Instr} (h : exec i s = .next t) (hv : statusValues i ≠ []) :
    t.answeredWith t.status := by
  cases i with
  | reset | resetLazy =>
    cases h
    exact settled_answeredWith_status _ _
  | addData q => exact appendPayload_answeredWith h
  | packData a q => exact buildFrame_answeredWith h
  | packError a b q => exact buildFrame_answeredWith h
  | packId q => exact buildFrame_answeredWith h
  | getByte => exact execGetByte_answeredWith h
  | construct b => exact execConstruct_answeredWith h
  | crc16 _ | setRequest _ | setResponse _ | pack | bytes | getRequest | getResponse | getLength | getChecksum
  | getStatus | getData _ => exact absurd rfl hv

/-- An operation without listed status values answers Ok. -/
theorem exec_answeredWith_ok {i : Instr} (h : exec i s = .next t) (hv : statusValues i = []) :
    t.answeredWith .ok := by
  cases i with
  | pack =>
    obtain ⟨-, -, rfl⟩ := commitFrame_next h
    exact answer_answeredWith _ _ _ _
  | bytes =>
    obtain ⟨-, rfl⟩ := execBytes_next h
    exact answer_answeredWith _ _ _ _
  | getData a =>
    obtain ⟨-, b, -, rfl⟩ | ⟨-, v, rfl⟩ := execGetData_next h <;> exact answer_answeredWith _ _ _ _
  | crc16 _ | setRequest _ | setResponse _ | getRequest | getResponse | getLength | getChecksum | getStatus =>
    cases h
    exact answer_answeredWith _ _ _ _
  | reset | resetLazy | addData _ | packData _ _ | packError _ _ _ | packId _ | getByte | construct _ => cases hv

end Sys2Proof.Machine
end

section
/-! SUPPORT. A builder as a sequence of operations (30_encoding.md R84): the append does not look at the result output that
the operations before it leave, and it answers Ok exactly when it did not overflow. -/

namespace Sys2Proof.Machine

theorem andThen_congr {o : Answer} {f g : State → Answer} (h : ∀ t, o = .next t → f t = g t) :
    andThen o f = andThen o g := by
  cases o with
  | next t => exact h t rfl
  | fault e => rfl
  | refused r => rfl

theorem appendPayload_answer (q : List Byte) (s : State) (st : Status) (v : Halfword) (r : Option (List Byte)) :
    appendPayload q (s.answer st v r) = appendPayload q s := by
  by_cases hc : s.capacity.val < q.length + s.length.toNat
  · rw [appendPayload_overflow hc, appendPayload_overflow (s := s.answer st v r) hc]
    rfl
  · obtain ⟨m, e, -⟩ := writeCells_spec (s := s) (a := s.length.toNat) (q := q) (by omega)
    have e' : writeCells (s.answer st v r) s.length.toNat q = some ((s.answer st v r).withData m) :=
      writeCells_congr e rfl rfl
    simp only [appendPayload, State.answer_capacity, State.answer_length, e, e', orRefuse_some]
    rfl

theorem appendPayload_result_ok_iff {q : List Byte} {s t : State} (h : appendPayload q s = .next t) :
    t.result = resultOf .ok 0x0000#16 ↔ t.status ≠ .packetOverflow := by
  obtain ⟨-, rfl⟩ | ⟨-, m, rfl, -⟩ := appendPayload_next h <;> simp [resultOf]

/-- A build appends to the lazily reset packet with its fields set, and commits if the append answered Ok. -/
theorem buildFrame_eq_append_then_commit (a b : Halfword) (q : List Byte) (s : State) :
    buildFrame a b q s =
      andThen (appendPayload q ((s.clearFraming.withRequest a).withResponse b)) fun t =>
        if t.result = resultOf .ok 0x0000#16 then commitFrame t else .next t := by
  refine andThen_congr fun t h => ?_
  simp only [appendPayload_result_ok_iff h, ne_eq, ite_not]

end Sys2Proof.Machine
end

section
/-! PROOFS. The statements of 30_encoding.md. -/

namespace Sys2Proof.Machine

/-- Settles O4: the command's bytes spell the command, and the decoder reads back the operation. -/
theorem encodedOperationDecodesBack : Obligations.EncodedOperationDecodesBack := by
  intro i
  rw [Command.ofBytes_toBytes, decode_encode]

/-- Settles O5: encoding what a command decodes to zeroes its unused operands, and a canonical command's are zero. -/
theorem canonicalCommandIsItsEncoding : Obligations.CanonicalCommandIsItsEncoding :=
  fun _ _ hd hc => (encode_of_decode hd).trans (zeroUnused_of_canonical hc)

/-- Settles O23: the three field operations before the append leave the builder's state but for the result output. -/
theorem buildersAreTheirSequences : Obligations.BuildersAreTheirSequences := by
  refine fun a b q s => ⟨?_, rfl, rfl⟩
  change buildFrame a b q s =
    andThen (appendPayload q (((s.clearFraming.withRequest a).withResponse b).answer .ok 0x0000#16 none)) fun t =>
      if t.result = resultOf .ok 0x0000#16 then commitFrame t else .next t
  rw [appendPayload_answer]
  exact buildFrame_eq_append_then_commit a b q s

/-- Settles O42: the frame keeps a status that is not listed as written, and each result carries the status of R82. -/
theorem resultStatusIsTheStatusWritten : Obligations.ResultStatusIsTheStatusWritten := by
  intro i s t h
  by_cases hv : statusValues i = []
  · obtain ⟨x, hx, hst⟩ := exec_answeredWith_ok h hv
    exact ⟨x, hx, fun _ => ⟨hst, exec_status_kept h (status_not_mem_writes s hv)⟩, fun hn => absurd hv hn⟩
  · obtain ⟨x, hx, hst⟩ := exec_answeredWith_status h hv
    exact ⟨x, hx, fun he => absurd he hv, fun _ => hst⟩

/-- Settles O1: each code picks its row of the decoder's table, and the operands stay free. -/
theorem opcodeSelectsOperation : Obligations.OpcodeSelectsOperation := by
  intro a b q
  and_intros <;> rfl

/-- Settles O2: a step refuses what the decoder does not know, which is exactly the codes outside the table. -/
theorem undefinedCodeIsRefusedByName : Obligations.UndefinedCodeIsRefusedByName :=
  ⟨fun _ _ _ hc hu => step_of_unknown hc (decode_of_not_opcodeDefined hu), fun _ => decode_of_opcodeDefined⟩

end Sys2Proof.Machine
end

section
/-! SUPPORT. The algebra of the checksum (40_checksum.md R100 to R102, R105): table, update and fold are XOR-linear, and an
update, so also a fold, loses neither its accumulator nor its byte. -/

namespace Sys2Proof.Machine

/-! ### Lanes under XOR -/

@[simp] theorem lo8_xor (v w : Halfword) : lo8 (v ^^^ w) = lo8 v ^^^ lo8 w := BitVec.setWidth_xor

@[simp] theorem hi8_xor (v w : Halfword) : hi8 (v ^^^ w) = hi8 v ^^^ hi8 w := by
  simp only [hi8, BitVec.ushiftRight_xor_distrib, BitVec.setWidth_xor]

@[simp] theorem zext16_xor (a b : Byte) : zext16 (a ^^^ b) = zext16 a ^^^ zext16 b := BitVec.setWidth_xor

@[simp] theorem hi8_zext16 (b : Byte) : hi8 (zext16 b) = 0x00#8 := by
  ext i hi
  simp [hi8, zext16]

theorem zext16_hi8 (v : Halfword) : zext16 (hi8 v) = v >>> 8 := by
  ext i hi
  simp [hi8, zext16]
  exact fun hbit => Nat.lt_of_add_lt_add_left (n := 8) (BitVec.lt_of_getLsbD hbit)

/-! ### The table (40_checksum.md R100) -/

theorem crcTable_eq_procedure : ∀ i : Byte, crcTable i = crcTableProcedure i := by decide +kernel

/-- One bit of the procedure: a shift, and the polynomial if the outgoing bit is set. -/
theorem crcBitStep_eq (c : Halfword) :
    crcBitStep c = c >>> 1 ^^^ if c.getLsbD 0 then Config.crcPoly else 0x0000#16 := by
  rw [crcBitStep]
  cases c.getLsbD 0 <;> simp

/-- The outgoing bit of an XOR is the XOR of the outgoing bits, and two polynomials cancel. -/
theorem crcBitStep_xor (c d : Halfword) : crcBitStep (c ^^^ d) = crcBitStep c ^^^ crcBitStep d := by
  have hpoly (x y : Bool) : (if (x ^^ y) = true then Config.crcPoly else 0x0000#16) =
      (if x = true then Config.crcPoly else 0x0000#16) ^^^ if y = true then Config.crcPoly else 0x0000#16 := by
    cases x <;> cases y <;> rfl
  rw [crcBitStep_eq, crcBitStep_eq, crcBitStep_eq, BitVec.ushiftRight_xor_distrib, BitVec.getLsbD_xor, hpoly]
  ac_rfl

theorem crcTable_xor (i j : Byte) : crcTable (i ^^^ j) = crcTable i ^^^ crcTable j := by
  simp only [crcTable_eq_procedure, crcTableProcedure, zext16_xor, crcBitStep_xor]

theorem hi8_crcTable_eq_zero : ∀ i : Byte, hi8 (crcTable i) = 0x00#8 → i = 0x00#8 := by decide +kernel

/-- The high lane alone tells the table's entries apart, so that an update reveals the index it used. -/
theorem hi8_crcTable_injective {i j : Byte} (h : hi8 (crcTable i) = hi8 (crcTable j)) : i = j := by
  have hz : hi8 (crcTable (i ^^^ j)) = 0x00#8 := by rw [crcTable_xor, hi8_xor, h, BitVec.xor_self]
  exact BitVec.xor_eq_zero_iff.mp (hi8_crcTable_eq_zero _ hz)

/-! ### The update of one byte (40_checksum.md R101) -/

theorem crcUpdate_eq (crc : Halfword) (b : Byte) :
    crcUpdate crc b = crcTable (lo8 crc ^^^ b) ^^^ zext16 (hi8 crc) := by
  rw [crcUpdate, zext16_hi8]

theorem crcUpdate_xor (c d : Halfword) (a b : Byte) :
    crcUpdate (c ^^^ d) (a ^^^ b) = crcUpdate c a ^^^ crcUpdate d b := by
  have hidx : lo8 (c ^^^ d) ^^^ (a ^^^ b) = (lo8 c ^^^ a) ^^^ (lo8 d ^^^ b) := by rw [lo8_xor]; ac_rfl
  rw [crcUpdate_eq, crcUpdate_eq, crcUpdate_eq, hidx, crcTable_xor, hi8_xor, zext16_xor]
  ac_rfl

/-- The old accumulator's high lane moves down, so the new high lane is the table's alone and fixes the index. -/
theorem crcUpdate_eq_iff {c d : Halfword} {a b : Byte} :
    crcUpdate c a = crcUpdate d b ↔ lo8 c ^^^ a = lo8 d ^^^ b ∧ hi8 c = hi8 d := by
  rw [crcUpdate_eq, crcUpdate_eq]
  constructor
  · intro h
    have hidx : lo8 c ^^^ a = lo8 d ^^^ b := hi8_crcTable_injective (by simpa using congrArg hi8 h)
    rw [hidx, BitVec.xor_right_inj] at h
    exact ⟨hidx, by simpa using congrArg lo8 h⟩
  · rintro ⟨hidx, hhi⟩
    rw [hidx, hhi]

theorem crcUpdate_left_injective {c d : Halfword} {b : Byte} (h : crcUpdate c b = crcUpdate d b) : c = d := by
  obtain ⟨hlo, hhi⟩ := crcUpdate_eq_iff.mp h
  exact halfword_ext ((BitVec.xor_left_inj _).mp hlo) hhi

theorem crcUpdate_right_injective {c : Halfword} {a b : Byte} (h : crcUpdate c a = crcUpdate c b) : a = b :=
  (BitVec.xor_right_inj _).mp (crcUpdate_eq_iff.mp h).left

/-! ### The fold over a sequence (40_checksum.md R102) -/

@[simp] theorem crcFold_nil (init : Halfword) : crcFold init [] = init := rfl

@[simp] theorem crcFold_cons (init : Halfword) (b : Byte) (q : List Byte) :
    crcFold init (b :: q) = crcFold (crcUpdate init b) q := rfl

theorem crcFold_append (init : Halfword) (q r : List Byte) :
    crcFold init (q ++ r) = crcFold (crcFold init q) r := List.foldl_append

theorem crcFold_xor {q r : List Byte} (c d : Halfword) (h : q.length = r.length) :
    crcFold (c ^^^ d) (List.zipWith (· ^^^ ·) q r) = crcFold c q ^^^ crcFold d r := by
  induction q generalizing r c d with
  | nil =>
    obtain rfl := List.length_eq_zero_iff.mp h.symm
    rfl
  | cons a q ih =>
    obtain ⟨b, r, rfl⟩ := List.exists_cons_of_length_eq_add_one h.symm
    simp only [List.zipWith_cons_cons, crcFold_cons, crcUpdate_xor]
    exact ih _ _ (Nat.succ.inj h)

theorem crcFold_injective {c d : Halfword} {q : List Byte} (h : crcFold c q = crcFold d q) : c = d := by
  induction q generalizing c d with
  | nil => exact h
  | cons b q ih => exact crcUpdate_left_injective (ih h)

/-- A wrong byte sends the accumulator astray, and no byte after it can bring it back. -/
theorem crcFold_set_ne (init : Halfword) {q : List Byte} {j : Nat} {x : Byte} (hj : j < q.length) (hx : x ≠ q[j]) :
    crcFold init (q.set j x) ≠ crcFold init q := by
  induction q generalizing init j with
  | nil => exact absurd hj (Nat.not_lt_zero j)
  | cons b q ih =>
    cases j with
    | zero => exact fun h => hx (crcUpdate_right_injective (crcFold_injective h))
    | succ j => exact ih (crcUpdate init b) (Nat.lt_of_succ_lt_succ hj) hx

/-- A flipped bit of a byte changes the byte. -/
theorem xor_bit_ne (b : Byte) {k : Nat} (hk : k < 8) : b ^^^ (1#8 <<< k) ≠ b := by
  intro h
  have hbit := congrArg (·.getLsbD k) h
  simp [hk] at hbit

end Sys2Proof.Machine
end

section
/-! PROOFS. The statements of 40_checksum.md. -/

namespace Sys2Proof.Machine

/-- Settles O11: the printed entries are compared with the procedure's, and the procedure is linear bit by bit. -/
theorem crcTableIsGenerated : Obligations.CrcTableIsGenerated :=
  ⟨crcTable_eq_procedure, rfl, rfl, rfl, rfl, crcTable_xor⟩

/-- Settles O14: the fold is linear in the accumulator too, and CRC_INIT cancels itself. -/
theorem crcIsXorLinear : Obligations.CrcIsXorLinear := by
  intro q r h
  have hfold := crcFold_xor Config.crcInit Config.crcInit h
  rw [BitVec.xor_self] at hfold
  exact hfold.symm

/-- Settles O15: a flipped bit makes a wrong byte, and a wrong byte changes the fold. -/
theorem crcDetectsEverySingleBitError : Obligations.CrcDetectsEverySingleBitError :=
  fun q j _ hj hk => crcFold_set_ne Config.crcInit hj (xor_bit_ne q[j] hk)

/-- Settles O12: the fold over one byte more is one update more. -/
theorem crcIsTheFoldOfItsUpdate : Obligations.CrcIsTheFoldOfItsUpdate :=
  ⟨crcUpdate_eq, rfl, fun q b => (crcFold_append Config.crcInit q [b]).trans (crcUpdate_eq (crc16 q) b)⟩

/-- Settles O13: the operation returns the checksum through the answer that leaves every register as it was. -/
theorem crcOperationReturnsTheChecksum : Obligations.CrcOperationReturnsTheChecksum :=
  fun q s => returnOk_eq (crc16 q) s

end Sys2Proof.Machine
end

section
/-! SUPPORT. The serialisers (41_outbound.md R117, R118), the commit of an empty frame (R113) and the append (R112), case by
case. -/

namespace Sys2Proof.Machine

variable {s t : State}

/-- The image, where its cells exist, has `10 + length` bytes (30_encoding.md R71). -/
theorem imageBytes_length (s : State) : (framingBytes s ++ s.validBytes).length = 10 + s.length.toNat := by
  rw [List.length_append, framingBytes_length, validBytes_length]

/-! ### GET_BYTE and DRAIN -/

/-- What GET_BYTE leaves when it has returned a byte of the image. -/
def State.byteEmitted (s : State) (b : Byte) : State :=
  ((s.withCounter (s.internalCounter + 1)).withStatus .ok).answer .ok (zext16 b) none

@[simp] theorem byteEmitted_internalCounter (b : Byte) :
    (s.byteEmitted b).internalCounter = s.internalCounter + 1 := rfl

@[simp] theorem byteEmitted_length (b : Byte) : (s.byteEmitted b).length = s.length := rfl

@[simp] theorem byteEmitted_byteOut (b : Byte) : (s.byteEmitted b).byteOut = b := lo8_zext16 b

/-- Before the end, GET_BYTE returns the byte at the cursor and moves the cursor on (41_outbound.md R118). -/
theorem execGetByte_byte {b : Byte} (hp : s.internalCounter < 10 + s.length.toNat)
    (hb : imageByte s s.internalCounter = some b) :
    execGetByte s = .next (s.byteEmitted b) := by
  rw [execGetByte, if_pos hp, hb]
  rfl

/-- Past the end, GET_BYTE ends the emission and puts the cursor back to 0 (41_outbound.md R118). -/
theorem execGetByte_finished (hp : 10 + s.length.toNat ≤ s.internalCounter) :
    execGetByte s = .next ((s.withCounter 0).settled .getByteFinished) := by
  rw [execGetByte, if_neg (Nat.not_lt.2 hp)]
  rfl

theorem execGetByte_refused (hp : s.internalCounter < 10 + s.length.toNat)
    (hb : imageByte s s.internalCounter = none) : execGetByte s = .refused .dataIndexOutOfRange := by
  rw [execGetByte, if_pos hp, hb]
  rfl

/-- From position 10 on a byte of the image is a cell, and exists where the cell does. -/
theorem imageByte_payload {p : Nat} (hp : 10 ≤ p) : imageByte s p = memRead s (p - 10) := if_neg (Nat.not_lt.2 hp)

theorem imageByte_exists {p : Nat} (hp : p < 10 ∨ p - 10 < s.capacity.val) : ∃ b, imageByte s p = some b := by
  rcases Nat.lt_or_ge p 10 with hlt | hge
  · exact ⟨_, (if_pos hlt).trans (List.getElem?_eq_getElem (by simpa using hlt))⟩
  · exact ⟨_, (imageByte_payload hge).trans (memRead_of_lt (by omega))⟩

/-- One byte returned, then the rest. -/
theorem drain_byte (n : Nat) {b : Byte} (h : execGetByte s = .next (s.byteEmitted b)) :
    drain (n + 1) s = (b :: (drain n (s.byteEmitted b)).1, (drain n (s.byteEmitted b)).2) := by
  have hexec : exec .getByte s = .next (s.byteEmitted b) := h
  have hst : (s.byteEmitted b).status ≠ .getByteFinished := fun he => nomatch he
  rw [drain, hexec]
  simp only [if_neg hst, byteEmitted_byteOut]

theorem drain_finished (n : Nat) (h : execGetByte s = .next t) (hst : t.status = .getByteFinished) :
    drain (n + 1) s = ([], .next t) := by
  have hexec : exec .getByte s = .next t := h
  rw [drain, hexec]
  exact if_pos hst

/-- With `n` bytes of the image left, `n + 1` calls return them and end the emission (41_outbound.md R118). -/
theorem drain_rest {n : Nat} (hl : s.lengthFits) (hn : s.internalCounter + n = 10 + s.length.toNat) :
    drain (n + 1) s = ((framingBytes s ++ s.validBytes).drop s.internalCounter,
      .next ((s.withCounter 0).settled .getByteFinished)) := by
  have hlen := imageBytes_length s
  induction n generalizing s with
  | zero =>
    rw [drain_finished 0 (execGetByte_finished (Nat.le_of_eq hn.symm)) rfl, List.drop_eq_nil_of_le (by omega)]
  | succ n ih =>
    have hp : s.internalCounter < (framingBytes s ++ s.validBytes).length := by omega
    have hrest := ih (s := s.byteEmitted (framingBytes s ++ s.validBytes)[s.internalCounter]) hl (by simp; omega) hlen
    rw [drain_byte _ (execGetByte_byte (hlen ▸ hp) (imageByte_eq (image_eq hl) hp)), hrest,
      List.drop_eq_getElem_cons hp]
    rfl

/-! ### BYTES -/

theorem execBytes_fits (hl : s.lengthFits) :
    execBytes s = .next (s.answer .ok 0x0000#16 (some (framingBytes s ++ s.validBytes))) := by
  rw [execBytes, image_eq hl]
  rfl

theorem execBytes_refused (hl : ¬s.lengthFits) : execBytes s = .refused .dataIndexOutOfRange := by
  rw [execBytes, image_none hl]
  rfl

/-! ### PACK -/

/-- The checksum of the empty power-on frame is 0x0000, so PACK writes the header alone (41_outbound.md R113). -/
theorem commitFrame_powerOn (cap : Capacity) :
    commitFrame (State.powerOn cap) = .next { State.powerOn cap with
      header := Config.magic, result := resultOf .ok 0x0000#16 } := by
  have hcovered : coveredBytes (State.powerOn cap) = leBytes 0 ++ leBytes 0 ++ leBytes 0 := rfl
  have hcrc : crc16 (leBytes 0 ++ leBytes 0 ++ leBytes 0) = 0x0000#16 := by decide
  rw [commitFrame_fits (lengthFits_of_length_zero (State.powerOn_length cap)), hcovered, hcrc]
  rfl

/-! ### ADD_DATA -/

/-- What an append leaves in the buffer, the length, the status and the result, the next one overwrites. -/
theorem settled_withLength_overwritten (s : State) (m m' : Memory) (v w : Halfword) (st st' : Status) :
    (((((s.withData m).withLength v).settled st).withData m').withLength w).settled st' =
      ((s.withData m').withLength w).settled st' := by
  simp only [State.settled, State.answer, State.withStatus, State.withLength, State.withData]

/-- An append answers Ok exactly when it fits, and then writes its bytes as one run of cells from `length` on. -/
theorem appendPayload_ok_iff {q : List Byte} :
    (appendPayload q s = .next t ∧ t.status = .ok) ↔
      q.length + s.length.toNat ≤ s.capacity.val ∧ ∃ m, writeCells s s.length.toNat q = some (s.withData m) ∧
        t = ((s.withData m).withLength (s.length + BitVec.ofNat 16 q.length)).settled .ok := by
  by_cases hfit : q.length + s.length.toNat ≤ s.capacity.val
  · obtain ⟨m, hw, -⟩ := writeCells_spec (s := s) (a := s.length.toNat) (q := q) (by omega)
    have happ : appendPayload q s =
        .next (((s.withData m).withLength (s.length + BitVec.ofNat 16 q.length)).settled .ok) := by
      rw [appendPayload, if_neg (Nat.not_lt.2 hfit), hw]
      rfl
    constructor
    · rintro ⟨h, -⟩
      rw [happ] at h
      cases h
      exact ⟨hfit, m, hw, rfl⟩
    · rintro ⟨-, m', hw', rfl⟩
      have hm : m = m' := congrArg State.data (Option.some.inj (hw.symm.trans hw'))
      exact ⟨hm ▸ happ, rfl⟩
  · rw [appendPayload_overflow (Nat.lt_of_not_le hfit)]
    constructor
    · rintro ⟨h, hst⟩
      cases h
      cases hst
    · rintro ⟨hfit', -⟩
      exact absurd hfit' hfit

end Sys2Proof.Machine
end

section
/-! SUPPORT. A frame taken in by CONSTRUCT (42_inbound.md R131 to R138): the nine bytes before the length's high byte, that
byte, the payload, then the whole frame. Of the receiver only the two counters must be reset. -/

namespace Sys2Proof.Machine

/-! ### The outcome of a completed frame -/

/-- How a completed frame is validated (40_checksum.md R106). -/
def frameStatus (s : State) : Status :=
  if crc16 (coveredBytes s) = s.checksum then .packetReceived else .checksumError

theorem completeFrame_settled {s : State} (h : s.lengthFits) :
    completeFrame s = .next (s.settled (frameStatus s)) := completeFrame_fits h

theorem frameStatus_of_finalised {s : State} (h : s.finalised) (hl : s.lengthFits) :
    frameStatus s = .packetReceived := by
  obtain ⟨-, hcrc⟩ := h
  rw [frameCrc_eq hl, Option.some.injEq] at hcrc
  exact if_pos hcrc

/-- What feeding the end of a frame gives: PacketBuilding for `n` bytes, and the validation of the receiver that holds the
frame for the last. -/
def frameOutcome (n : Nat) (held : State) : List Status × Answer :=
  (List.replicate n .packetBuilding ++ [frameStatus held], .next (held.settled (frameStatus held)))

/-- The status and the result of the receiver before its last byte do not count. -/
@[simp] theorem frameOutcome_settled (n : Nat) (held : State) (st : Status) :
    frameOutcome n (held.settled st) = frameOutcome n held := rfl

theorem feed_last {b : Byte} {s held : State} (hfit : held.lengthFits) (h : execConstruct b s = completeFrame held) :
    feed [b] s = frameOutcome 0 held := feed_cons (h.trans (completeFrame_settled hfit)) rfl

theorem feed_building {b : Byte} {bs : List Byte} {s t held : State} {n : Nat}
    (h : execConstruct b s = .next (t.settled .packetBuilding))
    (hrest : feed bs (t.settled .packetBuilding) = frameOutcome n held) :
    feed (b :: bs) s = frameOutcome (n + 1) held := by
  rw [feed_cons h rfl, hrest]
  rfl

/-! ### The framing bytes -/

/-- Writing both lanes, low lane first, leaves nothing of the old value. -/
@[simp] theorem withHi8_withLo8 (v : Halfword) (l h : Byte) : withHi8 (withLo8 v l) h = halfword h l := by
  rw [withHi8, lo8_withLo8]

/-- A receiver, at position 9, that holds the five fields of the frame that `f` spells. -/
def fieldsTaken (f s : State) : State :=
  { s with
    header := f.header, checksum := f.checksum, request := f.request, response := f.response, length := f.length,
    internalCounter := 9 }

@[simp] theorem fieldsTaken_length (f s : State) : (fieldsTaken f s).length = f.length := rfl

@[simp] theorem fieldsTaken_internalCounter (f s : State) : (fieldsTaken f s).internalCounter = 9 := rfl

@[simp] theorem fieldsTaken_dataLengthCounter (f s : State) :
    (fieldsTaken f s).dataLengthCounter = s.dataLengthCounter := rfl

/-- The same, but the length's high byte is still to come. -/
def headTaken (f s : State) : State := (fieldsTaken f s).withLength (withLo8 s.length (lo8 f.length))

/-- Positions 0 to 8 store the first nine bytes of a frame, each in its lane (42_inbound.md R131 to R136). -/
theorem feed_head {f s : State} (hm : f.header = Config.magic) (hp : s.internalCounter = 0) :
    feed ((framingBytes f).take 9) s =
      (List.replicate 9 .packetBuilding, .next ((headTaken f s).settled .packetBuilding)) := by
  have hlo : lo8 f.header = Config.magicByte := by rw [hm]; rfl
  have hhi : hi8 f.header = Config.magicByte := by rw [hm]; rfl
  have run : feed ((framingBytes f).take 9) s =
      (List.replicate 9 .packetBuilding, .next ({ s with
        header := withHi8 (withLo8 s.header (lo8 f.header)) (hi8 f.header)
        checksum := withHi8 (withLo8 s.checksum (lo8 f.checksum)) (hi8 f.checksum)
        request := withHi8 (withLo8 s.request (lo8 f.request)) (hi8 f.request)
        response := withHi8 (withLo8 s.response (lo8 f.response)) (hi8 f.response)
        length := withLo8 s.length (lo8 f.length)
        internalCounter := 9 }.settled .packetBuilding)) := by
    simp only [framingBytes, hlo, hhi]
    obtain ⟨⟩ := s
    cases hp
    rfl
  simp only [withHi8_withLo8, halfword_lanes] at run
  exact run

/-- Position 9 completes the length and decides on it (42_inbound.md R137). -/
theorem execConstruct_lengthHigh (f s : State) :
    execConstruct (hi8 f.length) ((headTaken f s).settled .packetBuilding) =
      lengthDecoded ((fieldsTaken f s).settled .packetBuilding) := by
  have hl : withHi8 (withLo8 s.length (lo8 f.length)) (hi8 f.length) = f.length := by simp
  change lengthDecoded (((fieldsTaken f s).withLength
    (withHi8 (withLo8 s.length (lo8 f.length)) (hi8 f.length))).settled .packetBuilding) = _
  rw [hl]
  rfl

theorem lengthDecoded_zero {s : State} (hz : s.length = 0x0000#16) : lengthDecoded s = completeFrame s := if_pos hz

theorem lengthDecoded_fits {s : State} (hz : s.length ≠ 0x0000#16) (hfit : s.lengthFits) :
    lengthDecoded s = .next ((s.withCounter (s.internalCounter + 1)).settled .packetBuilding) := by
  rw [lengthDecoded, if_neg hz, if_neg (Nat.not_lt.2 hfit)]
  rfl

/-! ### The payload -/

/-- A receiver with its payload in place, every byte counted, at position `n`. -/
def State.payloadTaken (s : State) (m : Memory) (n : Nat) : State :=
  ((s.withData m).withDataCounter s.length).withCounter n

section
variable (s : State) (m : Memory) (n : Nat)

@[simp] theorem settled_payloadTaken (st : Status) :
    (s.settled st).payloadTaken m n = (s.payloadTaken m n).settled st := rfl

@[simp] theorem withCounter_payloadTaken (k : Nat) : (s.withCounter k).payloadTaken m n = s.payloadTaken m n := rfl

@[simp] theorem byteStored_payloadTaken (b : Byte) : (byteStored b s).payloadTaken m n = s.payloadTaken m n := rfl

end

/-- The count of payload bytes does not wrap below `length`. -/
theorem byteStored_dataLengthCounter_toNat (b : Byte) {s : State} (hd : s.dataLengthCounter.toNat < s.length.toNat) :
    (byteStored b s).dataLengthCounter.toNat = s.dataLengthCounter.toNat + 1 := by
  have := s.length.isLt
  rw [byteStored, State.withDataCounter_dataLengthCounter, BitVec.toNat_add, BitVec.toNat_ofNat]
  omega

/-- A run of cells inside the buffer, one byte at a time. -/
theorem writeCells_cons {s : State} {a : Nat} (b : Byte) (q : List Byte) (ha : a < s.capacity.val) :
    writeCells s a (b :: q) = writeCells (s.withData (Memory.write s.data a b)) (a + 1) q := by
  rw [writeCells, memWrite_of_lt b ha]

section
variable {b : Byte} {s : State} (hp : s.internalCounter = 10 + s.dataLengthCounter.toNat) (hfit : s.lengthFits)
include hp hfit

/-- Inside the frame a byte is stored (42_inbound.md R138). -/
theorem execConstruct_payload_stored (hd : s.dataLengthCounter.toNat < s.length.toNat) :
    execConstruct b s = payloadStored (byteStored b s) := by
  rw [execConstruct_payload b (by omega), constructPayload, if_neg (by simp only [Config.headerSize]; omega),
    memWrite_of_lt b (Nat.lt_of_lt_of_le hd hfit)]
  rfl

/-- A byte that is not the last moves the position on (42_inbound.md R138). -/
theorem execConstruct_payload_more (hd : s.dataLengthCounter.toNat + 1 < s.length.toNat) :
    execConstruct b s = .next (((byteStored b s).withCounter (s.internalCounter + 1)).settled .packetBuilding) := by
  have hcount := byteStored_dataLengthCounter_toNat b (Nat.lt_of_succ_lt hd)
  have hmore : (byteStored b s).dataLengthCounter ≠ (byteStored b s).length := fun e => by
    rw [e, byteStored_length] at hcount
    omega
  rw [execConstruct_payload_stored hp hfit (Nat.lt_of_succ_lt hd), payloadStored, if_neg hmore]
  rfl

/-- The last byte leaves the payload in place, and validates the frame (42_inbound.md R138). -/
theorem execConstruct_payload_last (hd : s.dataLengthCounter.toNat + 1 = s.length.toNat) :
    execConstruct b s =
      completeFrame (s.payloadTaken (Memory.write s.data s.dataLengthCounter.toNat b) s.internalCounter) := by
  have hlt : s.dataLengthCounter.toNat < s.length.toNat := by omega
  have hlen : s.dataLengthCounter + 1#16 = s.length :=
    BitVec.eq_of_toNat_eq ((byteStored_dataLengthCounter_toNat b hlt).trans hd)
  have et : byteStored b s = s.payloadTaken (Memory.write s.data s.dataLengthCounter.toNat b) s.internalCounter := by
    rw [State.payloadTaken, ← hlen]
    rfl
  rw [execConstruct_payload_stored hp hfit hlt, payloadStored, et]
  exact if_pos rfl

end

/-- The payload from cell `a` on: each byte is stored where `writeCells` puts it, and the last one validates the frame
(42_inbound.md R138). -/
theorem feed_payload {q : List Byte} {b : Byte} {s : State} {m : Memory} {a n : Nat}
    (ha : s.dataLengthCounter.toNat = a) (hp : s.internalCounter = 10 + a) (hfit : s.lengthFits)
    (hlen : a + (q.length + 1) = s.length.toNat) (hn : s.internalCounter + q.length = n)
    (hw : writeCells s a (b :: q) = some (s.withData m)) :
    feed (b :: q) s = frameOutcome q.length (s.payloadTaken m n) := by
  induction q generalizing s b a with
  | nil =>
    subst ha
    rw [writeCells_cons b [] (Nat.lt_of_lt_of_le (by omega) hfit)] at hw
    have hm : Memory.write s.data s.dataLengthCounter.toNat b = m := congrArg State.data (Option.some.inj hw)
    subst hm hn
    exact feed_last hfit (execConstruct_payload_last hp hfit hlen)
  | cons c q ih =>
    subst ha
    rw [List.length_cons] at hlen hn
    rw [writeCells_cons b _ (Nat.lt_of_lt_of_le (by omega) hfit)] at hw
    have hcount := byteStored_dataLengthCounter_toNat b (s := s) (by omega)
    have hrest := ih (b := c) (s := ((byteStored b s).withCounter (s.internalCounter + 1)).settled .packetBuilding)
      (by simp [hcount]) (by simp [hp, Nat.add_assoc]) (by simpa [State.lengthFits] using hfit) (by simp; omega)
      (by simp; omega) (writeCells_congr hw (by simp) (by simp [byteStored]))
    simpa using feed_building (execConstruct_payload_more hp hfit (by omega)) hrest

/-! ### The whole frame -/

/-- The valid bytes are those of the cells below the length. -/
theorem validBytes_congr {s t : State} (hl : t.length = s.length)
    (hd : ∀ a, a < s.length.toNat → Memory.read t.data a = Memory.read s.data a) : t.validBytes = s.validBytes := by
  rw [State.validBytes, State.validBytes, hl]
  exact List.map_congr_left fun a ha => hd a (List.mem_range.1 ha)

/-- From position 9 on: the length's high byte and the payload, which may be empty. -/
theorem feed_tail {f s : State} {m : Memory} (hd : s.dataLengthCounter = 0x0000#16)
    (hfit : f.length.toNat ≤ s.capacity.val) (hw : writeCells s 0 f.validBytes = some (s.withData m)) :
    feed (hi8 f.length :: f.validBytes) ((headTaken f s).settled .packetBuilding) =
      frameOutcome f.length.toNat ((fieldsTaken f s).payloadTaken m (9 + f.length.toNat)) := by
  have hrun := execConstruct_lengthHigh f s
  have hlen := validBytes_length f
  cases hq : f.validBytes with
  | nil =>
    have hn : f.length.toNat = 0 := by rw [← hlen, hq]; rfl
    have hz : f.length = 0x0000#16 := BitVec.eq_of_toNat_eq hn
    rw [hq] at hw
    have hm : s.data = m := congrArg State.data (Option.some.inj hw)
    have et : fieldsTaken f s = (fieldsTaken f s).payloadTaken m (9 + f.length.toNat) := by
      rw [State.payloadTaken, hn, ← hm, fieldsTaken_length, hz, ← hd]
      rfl
    rw [lengthDecoded_zero (s := (fieldsTaken f s).settled .packetBuilding) hz] at hrun
    rw [← et, hn, ← frameOutcome_settled 0 _ .packetBuilding]
    exact feed_last hfit hrun
  | cons b q =>
    rw [hq, List.length_cons] at hlen
    rw [hq] at hw
    have hz : f.length ≠ 0x0000#16 := fun h => by simp [h] at hlen
    rw [lengthDecoded_fits (s := (fieldsTaken f s).settled .packetBuilding) hz hfit] at hrun
    have hrest := feed_payload (n := 9 + f.length.toNat)
      (s := (((fieldsTaken f s).settled .packetBuilding).withCounter 10).settled .packetBuilding)
      (by simp [hd]) (by simp) hfit (by simp [hlen]) (by simp; omega) (writeCells_congr hw rfl rfl)
    simpa [hlen] using feed_building hrun hrest

/-- A receiver with both counters 0 takes in the frame that `f` spells, validates it at the last byte, and then holds its
fields and its payload. -/
theorem feed_frame {f s : State} (hm : f.header = Config.magic) (hp : s.internalCounter = 0)
    (hd : s.dataLengthCounter = 0x0000#16) (hw : Memory.wf s.data = true) (hfit : f.length.toNat ≤ s.capacity.val) :
    ∃ m, feed (framingBytes f ++ f.validBytes) s =
        (List.replicate (9 + f.length.toNat) .packetBuilding ++ [frameStatus f],
          .next (((fieldsTaken f s).payloadTaken m (9 + f.length.toNat)).settled (frameStatus f))) ∧
      ∀ a, a < f.length.toNat → Memory.read m a = Memory.read f.data a := by
  obtain ⟨m, hwrite, -, -, -, hval⟩ := writeCells_spec (s := s) (a := 0) (q := f.validBytes) (by simpa using hfit)
  have hread : ∀ a, a < f.length.toNat → Memory.read m a = Memory.read f.data a := fun a ha => by
    simpa [State.validBytes] using hval hw a (by simpa using ha)
  have hst : frameStatus ((fieldsTaken f s).payloadTaken m (9 + f.length.toNat)) = frameStatus f := by
    have hv : ((fieldsTaken f s).payloadTaken m (9 + f.length.toNat)).validBytes = f.validBytes :=
      validBytes_congr rfl hread
    rw [frameStatus, coveredBytes, hv]
    rfl
  have hsplit : framingBytes f ++ f.validBytes = (framingBytes f).take 9 ++ hi8 f.length :: f.validBytes := rfl
  refine ⟨m, ?_, hread⟩
  rw [hsplit, feed_append (feed_head hm hp), feed_tail hd hfit hwrite, frameOutcome, hst, List.replicate_add,
    List.append_assoc]

end Sys2Proof.Machine
end

section
/-! PROOFS. The statements of 41_outbound.md. -/

namespace Sys2Proof.Machine

/-- Settles O18: an append that fits writes its bytes from `length` on, and the new length does not wrap. -/
theorem addDataAppendsOrOverflows : Obligations.AddDataAppendsOrOverflows := by
  refine ⟨fun q s hfit hw => ?_, fun q s hover => appendPayload_overflow hover⟩
  obtain ⟨m, e, -, -, hout, hval⟩ := appendPayload_fits hfit
  refine ⟨_, e, rfl, append_length_toNat hfit, fun k hk => ?_, fun a ha => memRead_congr_cell rfl (hout a ha)⟩
  have hcap : s.length.toNat + k < s.capacity.val := by omega
  exact (if_pos hcap).trans (congrArg some (hval hw k hk))

/-- Settles O19: two runs of cells written one after the other are one run, and neither length sum wraps. -/
theorem appendsConcatenate : Obligations.AppendsConcatenate := by
  intro q r s t u hq hqs hr hrs
  obtain ⟨hfq, m, hwq, rfl⟩ := appendPayload_ok_iff.1 ⟨hq, hqs⟩
  obtain ⟨hfr, m', hwr, rfl⟩ := appendPayload_ok_iff.1 ⟨hr, hrs⟩
  simp only [State.settled_length, State.withLength_length] at hfr hwr
  rw [append_length_toNat hfq] at hfr hwr
  refine (appendPayload_ok_iff.2 ⟨?_, m', ?_, ?_⟩).left
  · rw [List.length_append]
    exact Nat.le_trans (by omega) hfr
  · rw [writeCells_append r hwq]
    exact writeCells_congr hwr rfl rfl
  · rw [List.length_append, BitVec.ofNat_add, ← BitVec.add_assoc, settled_withLength_overwritten,
      State.settled_length, State.withLength_length]

/-- Settles O20: the commit of R113; the checksum of an empty power-on frame is 0x0000. -/
theorem packWritesChecksumAndHeader : Obligations.PackWritesChecksumAndHeader :=
  ⟨fun _ hl => commitFrame_fits hl, fun _ hl => commitFrame_refused hl, commitFrame_powerOn⟩

/-- Settles O21: a packed packet is finalised, and its checksum covers nothing that PACK writes. -/
theorem packIsIdempotent : Obligations.PackIsIdempotent := by
  intro s t h
  obtain ⟨hl, hfin, rfl⟩ := commitFrame_next h
  exact ⟨commitFrame_fits (s := State.answer _ _ _ _) hl, hfin⟩

/-- Settles O22: the three builders are one build, whose two outcomes R114 gives. -/
theorem buildersFinaliseOrOverflow : Obligations.BuildersFinaliseOrOverflow := by
  refine ⟨fun a b q s hfit hw => ?_, fun a b q s hover =>
    ⟨buildFrame_overflow hover, buildFrame_overflow hover, buildFrame_overflow hover⟩⟩
  have hbuild (a b : Halfword) : ∃ t, buildFrame a b q s = .next t ∧ builtFrame a b q s t := by
    obtain ⟨t, e, hbuilt, -⟩ := buildFrame_fits (a := a) (b := b) hfit hw
    exact ⟨t, e, hbuilt⟩
  exact ⟨hbuild a 0x0001#16, hbuild a b, hbuild 0x0001#16 0x0001#16⟩

/-- Settles O24: the image of a packet whose length fits is its framing bytes and its valid bytes. -/
theorem bytesReturnsTheImage : Obligations.BytesReturnsTheImage :=
  ⟨fun s hl => ⟨_, imageBytes_length s, rfl, execBytes_fits hl⟩, fun _ hl => execBytes_refused hl⟩

/-- Settles O25: the byte at the cursor is read alone, from the framing bytes or from one cell. -/
theorem getByteReturnsTheByteAtTheCursor : Obligations.GetByteReturnsTheByteAtTheCursor := by
  refine ⟨fun s b hl hb => ?_, fun s hp hcell => ?_, fun s hp h10 hcap => ?_, fun s hp => execGetByte_finished hp⟩
  · obtain ⟨hp, rfl⟩ := List.getElem?_eq_some_iff.1 hb
    exact execGetByte_byte (by simpa using hp) (imageByte_eq (image_eq hl) hp)
  · obtain ⟨b, hb⟩ := imageByte_exists hcell
    exact ⟨b, hb, execGetByte_byte hp hb⟩
  · exact execGetByte_refused hp ((imageByte_payload h10).trans (memRead_of_not_lt (Nat.not_lt.2 hcap)))

/-- Settles O26: from cursor 0 the whole image is left. -/
theorem drainEmitsTheWholeFrame : Obligations.DrainEmitsTheWholeFrame := by
  intro s hl hp
  rw [show 11 + s.length.toNat = 10 + s.length.toNat + 1 by omega, drain_rest hl (by omega), hp]
  obtain ⟨⟩ := s
  cases hp
  rfl

/-- Settles O17: both writes answer Ok through the answer that leaves every other register as it was. -/
theorem fieldWritesSetTheirField : Obligations.FieldWritesSetTheirField :=
  fun a s => ⟨returnOk_eq 0x0000#16 (s.withRequest a), returnOk_eq 0x0000#16 (s.withResponse a)⟩

/-- Settles O34: a packed packet is finalised, so its frame is taken in and its checksum matches. -/
theorem roundTripReceivesTheFrame : Obligations.RoundTripReceivesTheFrame := by
  intro u tx rx hpack hrx hw hfit
  obtain ⟨hu, hfin, etx⟩ := commitFrame_next hpack
  have hl : tx.lengthFits := by rw [etx]; exact hu
  obtain ⟨-, -, -, -, -, hp, hd, -⟩ := hrx
  obtain ⟨m, hfeed, hread⟩ := feed_frame hfin.left hp hd hw hfit
  rw [frameStatus_of_finalised hfin hl] at hfeed
  refine ⟨_, _, image_eq hl, hfeed, rfl, rfl, rfl, rfl, rfl, fun a ha => ?_⟩
  rw [memRead_of_lt (s := tx) (Nat.lt_of_lt_of_le ha hl), ← hread a ha]
  exact memRead_of_lt (Nat.lt_of_lt_of_le ha hfit)

end Sys2Proof.Machine
end

section
/-! SUPPORT. CONSTRUCT, position by position: the exact answer in each case of 42_inbound.md R131 to R139, and what the
counter says of the outcome (R140, R142). -/

namespace Sys2Proof.Machine

variable {s t : State} {b : Byte}

/-! ### Positions 0 to 8 -/

/-- A byte other than 0x55 at a header position loses the header (42_inbound.md R131, R132). -/
theorem execConstruct_header_lost (hp : s.internalCounter ≤ 1) (hb : b ≠ Config.magicByte) :
    execConstruct b s = .next ((s.withCounter 0).settled .headerBytesNotFound) := by
  obtain h | h := Nat.le_one_iff_eq_zero_or_eq_one.1 hp
  all_goals
    simp only [execConstruct, h]
    exact if_pos hb

/-- Below position 9 every other byte is stored in its lane, and the counter moves on (42_inbound.md R131 to R136). -/
theorem execConstruct_lane_stored (hp : s.internalCounter ≤ 8) (hb : s.internalCounter ≤ 1 → b = Config.magicByte) :
    execConstruct b s = .next (((laneStored b s).withCounter (s.internalCounter + 1)).settled .packetBuilding) := by
  obtain ⟨_, _, _, _, _, _, _, n, _, _, _, _, _⟩ := s
  simp only at hp hb
  interval_cases n
  · rw [hb (by decide)]
    rfl
  · rw [hb (by decide)]
    rfl
  iterate 7 rfl

/-! ### Position 9 -/

/-- Position 9 decodes the length (42_inbound.md R137). -/
theorem execConstruct_lengthHigh_stored (hp : s.internalCounter = 9) :
    execConstruct b s = lengthDecoded (s.withLength (halfword b (lo8 s.length))) := by
  simp only [execConstruct, hp]
  rfl

/-- A length above CAPACITY is rejected (42_inbound.md R137). -/
theorem lengthDecoded_rejected (h : s.capacity.val < s.length.toNat) :
    lengthDecoded s = .next (s.settled .invalidDataLengthDetected) := by
  have hz : s.length ≠ 0x0000#16 := fun e => by simp [e] at h
  rw [lengthDecoded, if_neg hz, if_pos h]
  rfl

theorem frameStatus_of_crc_eq (h : crc16 (coveredBytes s) = s.checksum) : frameStatus s = .packetReceived := if_pos h

theorem frameStatus_of_crc_ne (h : crc16 (coveredBytes s) ≠ s.checksum) : frameStatus s = .checksumError := if_neg h

/-- A frame without payload covers request, response and two zero bytes (42_inbound.md R137). -/
theorem coveredBytes_of_length_zero (hz : s.length = 0x0000#16) :
    coveredBytes s = [lo8 s.request, hi8 s.request, lo8 s.response, hi8 s.response, 0x00#8, 0x00#8] := by
  rw [coveredBytes, State.validBytes, hz]
  rfl

theorem frameCrc_settled_iff {st : Status} {c : Halfword} (hl : s.lengthFits) :
    frameCrc (s.settled st) = some c ↔ crc16 (coveredBytes s) = c := by
  rw [frameCrc_eq (s := s.settled st) hl, Option.some.injEq]
  rfl

/-! ### From position 10 on -/

section
variable (hp : 10 ≤ s.internalCounter)
include hp

/-- A byte beyond the frame end is dropped (42_inbound.md R139). -/
theorem execConstruct_payload_dropped
    (hend : s.length.toNat ≤ s.dataLengthCounter.toNat ∨ s.length.toNat ≤ s.internalCounter - 10) :
    execConstruct b s = .next (s.settled .packetOverflow) := by
  rw [execConstruct_payload b hp, constructPayload, if_pos hend]
  rfl

variable (hd : s.dataLengthCounter.toNat < s.length.toNat) (hi : s.internalCounter - 10 < s.length.toNat)
include hd hi

/-- Inside the frame the outcome is that of the write to the cell at `data_length_counter` (42_inbound.md R138). -/
theorem execConstruct_payload_inside :
    execConstruct b s = orRefuse (memWrite s s.dataLengthCounter.toNat b) fun u =>
      payloadStored (u.withDataCounter (s.dataLengthCounter + 1#16)) := by
  rw [execConstruct_payload b hp, constructPayload]
  exact if_neg (not_or.2 ⟨Nat.not_le.2 hd, Nat.not_le.2 hi⟩)

/-- A byte for a cell that does not exist is refused (60_exceptions.md R190). -/
theorem execConstruct_payload_refused (hcap : s.capacity.val ≤ s.dataLengthCounter.toNat) :
    execConstruct b s = .refused .dataIndexOutOfRange := by
  rw [execConstruct_payload_inside hp hd hi, memWrite_of_not_lt b (Nat.not_lt.2 hcap)]
  rfl

/-- A byte for a cell that exists is stored, then either moves on or completes the frame (42_inbound.md R138). -/
theorem execConstruct_payload_kept (hcap : s.dataLengthCounter.toNat < s.capacity.val) :
    (s.dataLengthCounter.toNat + 1 < s.length.toNat ∧
      execConstruct b s = .next (((byteStored b s).withCounter (s.internalCounter + 1)).settled .packetBuilding)) ∨
    (s.dataLengthCounter.toNat + 1 = s.length.toNat ∧
      execConstruct b s = .next ((byteStored b s).settled (frameStatus (byteStored b s)))) := by
  have hcount := byteStored_dataLengthCounter_toNat b hd
  have hstored : execConstruct b s = payloadStored (byteStored b s) := by
    rw [execConstruct_payload_inside hp hd hi, memWrite_of_lt b hcap]
    rfl
  rw [hstored, payloadStored]
  by_cases hlast : (byteStored b s).dataLengthCounter = (byteStored b s).length
  · rw [if_pos hlast]
    rw [hlast, byteStored_length] at hcount
    have hfit : (byteStored b s).lengthFits := by
      change s.length.toNat ≤ s.capacity.val
      omega
    exact Or.inr ⟨hcount.symm, completeFrame_settled hfit⟩
  · rw [if_neg hlast]
    have hne : (byteStored b s).dataLengthCounter.toNat ≠ s.length.toNat := fun e => hlast (BitVec.eq_of_toNat_eq e)
    exact Or.inl ⟨by omega, rfl⟩

end

/-! ### The counter and the outcome -/

theorem terminalOutcome_of_completion {st : Status} (h : completionStatus st) : terminalOutcome st = true := by
  obtain rfl | rfl := h <;> rfl

theorem ne_of_terminalOutcome {st : Status} (h : terminalOutcome st = true) :
    st ≠ .packetBuilding ∧ st ≠ .headerBytesNotFound := by
  constructor <;> rintro rfl <;> cases h

/-- What the status says of the counter (42_inbound.md R140, R142): the header lost at position 0 or 1 and the counter 0,
the counter moved on by one, or a terminal outcome, from position 9 on, and the counter not moved. -/
theorem execConstruct_counter (h : execConstruct b s = .next t) :
    (t.status = .headerBytesNotFound ∧ s.internalCounter ≤ 1 ∧ t.internalCounter = 0) ∨
    (t.status = .packetBuilding ∧ t.internalCounter = s.internalCounter + 1) ∨
    (terminalOutcome t.status = true ∧ 9 ≤ s.internalCounter ∧ t.internalCounter = s.internalCounter) := by
  rcases Nat.lt_or_ge s.internalCounter 10 with hp | hp
  · obtain ⟨h1, -, rfl⟩ | ⟨-, -, rfl⟩ | ⟨h9, -, rfl⟩ | ⟨h9, -, st, hst, rfl⟩ :=
      execConstruct_field_next (Nat.le_of_lt_succ hp) h
    · exact Or.inl ⟨rfl, h1, rfl⟩
    · exact Or.inr (Or.inl ⟨rfl, rfl⟩)
    · exact Or.inr (Or.inr ⟨rfl, h9.ge, laneStored_internalCounter b s⟩)
    · exact Or.inr (Or.inr ⟨terminalOutcome_of_completion hst, h9.ge, laneStored_internalCounter b s⟩)
  · obtain ⟨-, rfl⟩ | ⟨-, -, -, -, ⟨-, rfl⟩ | ⟨-, -, st, hst, rfl⟩⟩ := execConstruct_payload_next hp h
    · exact Or.inr (Or.inr ⟨rfl, Nat.le_of_succ_le hp, rfl⟩)
    · exact Or.inr (Or.inl ⟨rfl, rfl⟩)
    · exact Or.inr (Or.inr ⟨terminalOutcome_of_completion hst, Nat.le_of_succ_le hp, rfl⟩)

theorem execConstruct_terminal (h : execConstruct b s = .next t) (hterm : terminalOutcome t.status = true) :
    9 ≤ s.internalCounter ∧ t.internalCounter = s.internalCounter := by
  obtain ⟨hbuilding, hlost⟩ := ne_of_terminalOutcome hterm
  obtain ⟨hst, -⟩ | ⟨hst, -⟩ | ⟨-, hkept⟩ := execConstruct_counter h
  · exact absurd hst hlost
  · exact absurd hst hbuilding
  · exact hkept

/-- After a terminal outcome at a payload position the next byte is beyond the frame end (42_inbound.md R143). -/
theorem beyond_frame_of_terminal_payload (hp : 10 ≤ s.internalCounter) (h : execConstruct b s = .next t)
    (hterm : terminalOutcome t.status = true) :
    10 ≤ t.internalCounter ∧
      (t.length.toNat ≤ t.dataLengthCounter.toNat ∨ t.length.toNat ≤ t.internalCounter - 10) := by
  obtain ⟨hend, rfl⟩ | ⟨-, -, -, -, ⟨-, rfl⟩ | ⟨hdone, -, st, -, rfl⟩⟩ := execConstruct_payload_next hp h
  · exact ⟨hp, hend⟩
  · cases hterm
  · exact ⟨hp, Or.inl (Nat.le_of_eq (congrArg BitVec.toNat hdone.symm))⟩

/-- Whatever position 9 decides, the new length stays (42_inbound.md R137). -/
theorem lengthDecoded_length (h : lengthDecoded s = .next t) : t.length = s.length := by
  rw [lengthDecoded] at h
  split at h
  · obtain ⟨-, st, -, rfl⟩ := completeFrame_inv h
    rfl
  · split at h <;> cases h <;> rfl

end Sys2Proof.Machine
end

section
/-! SUPPORT. Noise before a frame (42_inbound.md R144 (b)): CONSTRUCT does not look at the status, and a byte other than 0x55
at position 0 changes nothing else. -/

namespace Sys2Proof.Machine

/-- Where a byte is fed at all, the status before it does not count. -/
theorem feed_withStatus {bs : List Byte} (h : bs ≠ []) (s : State) (x : Status) :
    feed bs (s.withStatus x) = feed bs s := by
  cases bs with
  | nil => exact absurd rfl h
  | cons b bs =>
    have hexec : exec (.construct b) (s.withStatus x) = exec (.construct b) s := execConstruct_withStatus b s x
    simp only [feed, List.map_cons, runOps, hexec]

/-- Noise leaves a receiver at position 0 as it was, but for the status and the result (42_inbound.md R131). -/
theorem feed_noise {noise : List Byte} {s : State} (hp : s.internalCounter = 0)
    (hn : ∀ b ∈ noise, b ≠ Config.magicByte) :
    ∃ x r, feed noise s =
      (List.replicate noise.length .headerBytesNotFound, .next ({ s with result := r }.withStatus x)) := by
  induction noise generalizing s with
  | nil => exact ⟨s.status, s.result, rfl⟩
  | cons b noise ih =>
    have hlost : execConstruct b s = .next (s.settled .headerBytesNotFound) := by
      rw [execConstruct_header_lost (by omega) (hn b List.mem_cons_self), ← hp]
      rfl
    obtain ⟨x, r, hrest⟩ := ih (s := s.settled .headerBytesNotFound) hp fun c hc => hn c (List.mem_cons_of_mem b hc)
    exact ⟨x, r, by rw [feed_cons hlost rfl, hrest]; rfl⟩

end Sys2Proof.Machine
end

section
/-! SUPPORT. Where a stream of bytes stands in the header (42_inbound.md R144 (a)). -/

namespace Sys2Proof.Machine

variable {bs : List Byte} {b : Byte} {rx s t : State}

/-! ### A stream with one byte more -/

theorem feed_next_nil (h : (feed [] rx).2 = .next t) : t = rx := by
  cases h
  rfl

theorem feed_single (b : Byte) (s : State) : (feed [b] s).2 = execConstruct b s := by
  change (runOps [.construct b] s).2 = exec (.construct b) s
  rw [runOps]
  cases exec (.construct b) s <;> rfl

/-- A stream that goes on to its end has gone on to each of its bytes. -/
theorem feed_append_next {cs : List Byte} (h : (feed (bs ++ cs) rx).2 = .next t) :
    ∃ s, (feed bs rx).2 = .next s ∧ (feed cs s).2 = .next t := by
  induction bs generalizing rx with
  | nil => exact ⟨rx, rfl, h⟩
  | cons b bs ih =>
    change (runOps (.construct b :: (bs ++ cs).map .construct) rx).2 = .next t at h
    cases he : exec (.construct b) rx with
    | next u =>
      rw [runOps_cons he] at h
      obtain ⟨s, hs, hcs⟩ := ih h
      refine ⟨s, ?_, hcs⟩
      change (runOps (.construct b :: bs.map .construct) rx).2 = .next s
      rw [runOps_cons he]
      exact hs
    | fault e => cases e
    | refused r =>
      rw [runOps, he] at h
      cases h

theorem feed_concat (hs : (feed bs rx).2 = .next s) (h : execConstruct b s = .next t) :
    (feed (bs ++ [b]) rx).2 = .next t := by
  rw [feed_append (Prod.ext rfl hs), feed_single, h]

theorem feed_concat_next (h : (feed (bs ++ [b]) rx).2 = .next t) :
    ∃ s, (feed bs rx).2 = .next s ∧ execConstruct b s = .next t := by
  obtain ⟨s, hs, hlast⟩ := feed_append_next h
  exact ⟨s, hs, (feed_single b s).symm.trans hlast⟩

/-! ### The header as far as the stream has got -/

/-- The stream held two consecutive bytes 0x55, taken at positions 0 and 1. -/
def magicTaken (bs : List Byte) (rx : State) : Prop :=
  ∃ (cs ds : List Byte) (before behind : State), bs = cs ++ [Config.magicByte] ++ [Config.magicByte] ++ ds ∧
    (feed cs rx).2 = .next before ∧ before.internalCounter = 0 ∧
    (feed (cs ++ [Config.magicByte] ++ [Config.magicByte]) rx).2 = .next behind ∧ behind.internalCounter = 2

theorem magicTaken_concat (b : Byte) (h : magicTaken bs rx) : magicTaken (bs ++ [b]) rx := by
  obtain ⟨cs, ds, before, behind, rfl, htaken⟩ := h
  exact ⟨cs, ds ++ [b], before, behind, List.append_assoc _ _ _, htaken⟩

/-- Where `s`, reached from `rx` by the stream, stands in the header: before it; after its first byte, the stream's last; or
past it, both bytes taken. -/
def headerProgress (bs : List Byte) (rx s : State) : Prop :=
  s.internalCounter = 0 ∨
  (s.internalCounter = 1 ∧ lo8 s.header = Config.magicByte ∧ ∃ (cs : List Byte) (before : State),
    bs = cs ++ [Config.magicByte] ∧ (feed cs rx).2 = .next before ∧ before.internalCounter = 0) ∨
  (2 ≤ s.internalCounter ∧ s.header = Config.magic ∧ magicTaken bs rx)

/-- A header position loses the header or takes 0x55 (42_inbound.md R131, R132). -/
theorem execConstruct_header_next (hp : s.internalCounter ≤ 1) (h : execConstruct b s = .next t) :
    t.internalCounter = 0 ∨ (b = Config.magicByte ∧ t.internalCounter = s.internalCounter + 1 ∧
      t.header = (laneStored b s).header) := by
  by_cases hb : b = Config.magicByte
  · rw [execConstruct_lane_stored (by omega) fun _ => hb] at h
    cases h
    exact Or.inr ⟨hb, rfl, rfl⟩
  · rw [execConstruct_header_lost hp hb] at h
    cases h
    exact Or.inl rfl

/-- Past the header no byte changes it or goes back before it (42_inbound.md R133 to R139). -/
theorem execConstruct_past_header (hp : 2 ≤ s.internalCounter) (h : execConstruct b s = .next t) :
    2 ≤ t.internalCounter ∧ t.header = s.header := by
  refine ⟨?_, ?_⟩
  · obtain ⟨-, h1, -⟩ | ⟨-, hc⟩ | ⟨-, -, hc⟩ := execConstruct_counter h <;> omega
  · have hw : Register.header ∉ constructWrites s.internalCounter := fun hm => by
      unfold constructWrites at hm
      split at hm <;> simp at hm <;> omega
    exact (execConstruct_framed h).registers _ hw

/-- One byte more keeps it. -/
theorem headerProgress_concat (hprog : headerProgress bs rx s) (hs : (feed bs rx).2 = .next s)
    (h : execConstruct b s = .next t) : headerProgress (bs ++ [b]) rx t := by
  obtain h0 | ⟨h1, hlo, cs, before, rfl, hbefore, hb0⟩ | ⟨h2, hhead, htaken⟩ := hprog
  · obtain ht0 | ⟨rfl, hc, hlane⟩ := execConstruct_header_next (by omega) h
    · exact Or.inl ht0
    · refine Or.inr (Or.inl ⟨by omega, ?_, bs, s, rfl, hs, h0⟩)
      simp [hlane, laneStored, h0]
  · obtain ht0 | ⟨rfl, hc, hlane⟩ := execConstruct_header_next (by omega) h
    · exact Or.inl ht0
    · refine Or.inr (Or.inr ⟨by omega, ?_, cs, [], before, t, (List.append_nil _).symm, hbefore, hb0,
        feed_concat hs h, by omega⟩)
      rw [hlane]
      simp only [laneStored, h1]
      exact halfword_ext ((lo8_withHi8 _ _).trans hlo) (hi8_withHi8 _ _)
  · obtain ⟨ht2, hkept⟩ := execConstruct_past_header h2 h
    exact Or.inr (Or.inr ⟨ht2, hkept.trans hhead, magicTaken_concat b htaken⟩)

/-- From a reset, every stream stands somewhere in the header. -/
theorem headerProgress_of_feed (h0 : rx.internalCounter = 0) (h : (feed bs rx).2 = .next t) :
    headerProgress bs rx t := by
  induction bs using List.reverseRecOn generalizing t with
  | nil => exact Or.inl (feed_next_nil h ▸ h0)
  | append_singleton bs b ih =>
    obtain ⟨s, hs, hlast⟩ := feed_concat_next h
    exact headerProgress_concat (ih hs) hs hlast

/-- A stream that ends in a terminal outcome, where the receiver began with none, ends at position 9 or later. -/
theorem internalCounter_of_feed_terminal (hrx : terminalOutcome rx.status = false) (h : (feed bs rx).2 = .next t)
    (hterm : terminalOutcome t.status = true) : 9 ≤ t.internalCounter := by
  obtain rfl | ⟨cs, b, rfl⟩ := List.eq_nil_or_concat' bs
  · rw [feed_next_nil h, hrx] at hterm
    cases hterm
  · obtain ⟨s, -, hlast⟩ := feed_concat_next h
    obtain ⟨h9, hc⟩ := execConstruct_terminal hlast hterm
    exact hc ▸ h9

end Sys2Proof.Machine
end

section
/-! SUPPORT. One byte of a frame changed (42_inbound.md R145): outside header and length, the changed bytes are again those
of a packet, and its checksum does not match. -/

namespace Sys2Proof.Machine

variable {f g : State} {j : Nat} {b : Byte}

/-- The checksum covers the frame from offset 4 on (40_checksum.md R104). -/
theorem coveredBytes_eq_drop (s : State) : coveredBytes s = (framingBytes s ++ s.validBytes).drop 4 := rfl

/-- The lane that position `p` writes is byte `p` of the framing bytes. -/
theorem framingBytes_laneStored (b : Byte) {s : State} (hp : s.internalCounter ≤ 9) :
    framingBytes (laneStored b s) = (framingBytes s).set s.internalCounter b := by
  interval_cases hc : s.internalCounter <;> simp [laneStored, hc, framingBytes]

/-- Any payload of the right length can be held. -/
theorem exists_validBytes_eq {q : List Byte} (hl : f.lengthFits) (hq : q.length = f.length.toNat) :
    ∃ m, (f.withData m).validBytes = q := by
  have hfit : 0 + q.length ≤ (f.withData []).capacity.val := by
    rw [Nat.zero_add, hq]
    exact hl
  obtain ⟨m, -, -, -, -, hval⟩ := writeCells_spec hfit
  refine ⟨m, List.ext_getElem (by simp [hq]) fun k _ hk => ?_⟩
  simpa [State.validBytes] using hval rfl k hk

/-- A frame with one byte changed outside header and length is the frame of a packet with the same header and length. -/
theorem exists_frame_set (hl : f.lengthFits) (hj : (2 ≤ j ∧ j < 8) ∨ 10 ≤ j) :
    ∃ g : State, g.header = f.header ∧ g.length = f.length ∧
      framingBytes g ++ g.validBytes = (framingBytes f ++ f.validBytes).set j b := by
  obtain ⟨h2, h8⟩ | h10 := hj
  · have hset := framingBytes_laneStored b (s := f.withCounter j) (Nat.le_of_lt (Nat.lt_succ_of_lt h8))
    obtain ⟨hhead, hlen, hvalid⟩ : (laneStored b (f.withCounter j)).header = f.header ∧
        (laneStored b (f.withCounter j)).length = f.length ∧
        (laneStored b (f.withCounter j)).validBytes = f.validBytes := by
      interval_cases j <;> exact ⟨rfl, rfl, rfl⟩
    refine ⟨laneStored b (f.withCounter j), hhead, hlen, ?_⟩
    rw [hset, hvalid, List.set_append_left _ _ (Nat.lt_of_lt_of_le h8 (by simp))]
    rfl
  · obtain ⟨m, hm⟩ := exists_validBytes_eq (q := f.validBytes.set (j - 10) b) hl (by simp)
    refine ⟨f.withData m, rfl, rfl, ?_⟩
    rw [hm, List.set_append_right _ _ (by simpa using h10)]
    rfl

section
variable (hf : crc16 (coveredBytes f) = f.checksum) (hlt : j < (framingBytes f ++ f.validBytes).length)
  (hb : b ≠ (framingBytes f ++ f.validBytes)[j])
  (hg : framingBytes g ++ g.validBytes = (framingBytes f ++ f.validBytes).set j b)
include hf hlt hb hg

/-- A changed checksum byte leaves the bytes covered, which still have the old checksum. -/
theorem frameStatus_of_checksum_set (h2 : 2 ≤ j) (h4 : j < 4) : frameStatus g = .checksumError := by
  refine frameStatus_of_crc_ne fun hcrc => hb ?_
  have hcovered : coveredBytes g = coveredBytes f := by
    rw [coveredBytes_eq_drop, hg, List.drop_set_of_lt h4, ← coveredBytes_eq_drop]
  have hsum : g.checksum = f.checksum := by rw [← hcrc, hcovered, hf]
  have hbyte : (framingBytes g ++ g.validBytes)[j]? = (framingBytes f ++ f.validBytes)[j]? := by
    interval_cases j
    · exact congrArg (fun v => some (lo8 v)) hsum
    · exact congrArg (fun v => some (hi8 v)) hsum
  rw [hg, List.getElem?_set_self hlt, List.getElem?_eq_getElem hlt] at hbyte
  exact Option.some.inj hbyte

/-- A changed byte that the checksum covers changes the checksum it should have (40_checksum.md R105). -/
theorem frameStatus_of_covered_set (h4 : 4 ≤ j) : frameStatus g = .checksumError := by
  refine frameStatus_of_crc_ne fun hcrc => ?_
  have hsum : g.checksum = f.checksum := by
    have htake := congrArg (List.take 4) hg
    rw [List.take_set_of_le h4] at htake
    simp only [framingBytes, List.cons_append, List.take_succ_cons, List.take_zero, List.cons.injEq] at htake
    obtain ⟨-, -, hlo, hhi, -⟩ := htake
    exact halfword_ext hlo hhi
  have hcovered : coveredBytes g = (coveredBytes f).set (j - 4) b := by
    rw [coveredBytes_eq_drop, hg, List.drop_set, if_neg (Nat.not_lt.2 h4), ← coveredBytes_eq_drop]
  have hpos : j - 4 < (coveredBytes f).length := by
    rw [coveredBytes_eq_drop, List.length_drop]
    omega
  have hne : b ≠ (coveredBytes f)[j - 4] := by
    simpa only [coveredBytes_eq_drop, List.getElem_drop, Nat.add_sub_cancel' h4] using hb
  refine crcFold_set_ne Config.crcInit hpos hne ?_
  rw [← hcovered]
  exact hcrc.trans (hsum.trans hf.symm)

end

end Sys2Proof.Machine
end

section
/-! PROOFS. The statements of 42_inbound.md. -/

namespace Sys2Proof.Machine

/-- Settles O27: a header position loses the header or stores its lane. -/
theorem headerPositionsAcceptOnlyMagic : Obligations.HeaderPositionsAcceptOnlyMagic := by
  refine ⟨fun b s hp hb => execConstruct_header_lost (by omega) hb, ?_, ?_⟩
  all_goals
    intro s hp
    refine (execConstruct_lane_stored (by omega) fun _ => rfl).trans ?_
    simp only [laneStored, hp]
    rfl

/-- Settles O28: at each of the seven positions a byte is stored in the lane that `laneStored` gives it. -/
theorem fieldPositionsStoreTheirLane : Obligations.FieldPositionsStoreTheirLane := by
  intro b s
  refine ⟨?_, ?_, ?_, ?_, ?_, ?_, ?_⟩
  all_goals
    intro hp
    refine (execConstruct_lane_stored (by omega) (by omega)).trans ?_
    simp only [laneStored, hp]
    rfl

/-- Settles O29: the length that position 9 decodes is zero, too large, or one the buffer holds. -/
theorem lengthIsDecodedAndTested : Obligations.LengthIsDecodedAndTested := by
  rintro b s l hp rfl
  have hrun : exec (.construct b) s = lengthDecoded (s.withLength (halfword b (lo8 s.length))) :=
    execConstruct_lengthHigh_stored hp
  rw [hrun]
  generalize halfword b (lo8 s.length) = l
  have hzero (hz : l = 0x0000#16) : lengthDecoded (s.withLength l) =
      .next ((s.withLength l).settled (frameStatus (s.withLength l))) :=
    (lengthDecoded_zero hz).trans (completeFrame_settled (lengthFits_of_length_zero hz))
  have hcrc0 (hz : l = 0x0000#16) := congrArg crc16 (coveredBytes_of_length_zero (s := s.withLength l) hz)
  refine ⟨fun hz hcrc => ?_, fun hz hcrc => ?_, fun hcap => lengthDecoded_rejected hcap, fun hpos hfit => ?_⟩
  · rw [hzero hz, frameStatus_of_crc_eq ((hcrc0 hz).trans hcrc.symm)]
    rfl
  · rw [hzero hz, frameStatus_of_crc_ne (s := s.withLength l) fun e => hcrc (e.symm.trans (hcrc0 hz))]
    rfl
  · have hz : l ≠ 0x0000#16 := fun e => by simp [e] at hpos
    rw [lengthDecoded_fits (s := s.withLength l) hz hfit, State.withLength_internalCounter, hp]
    rfl

/-- Settles O30: a payload byte is dropped, refused, or stored; the last one stored leaves a length that fits. -/
theorem payloadPositionsStoreAndValidate : Obligations.PayloadPositionsStoreAndValidate := by
  refine ⟨fun b s hp hend => execConstruct_payload_dropped hp hend,
    fun b s hp hd hi hcap => execConstruct_payload_refused hp hd hi hcap, fun b s hp hd hi hcap hw => ?_⟩
  have hcount := byteStored_dataLengthCounter_toNat b hd
  have hread : memRead (byteStored b s) s.dataLengthCounter.toNat = some b :=
    (memRead_of_lt (s := byteStored b s) hcap).trans (congrArg some (Memory.read_write_same _ b hw))
  have hother (a : Nat) (ha : a ≠ s.dataLengthCounter.toNat) : memRead (byteStored b s) a = memRead s a :=
    memRead_congr_cell rfl (Memory.read_write_other s.data b ha)
  obtain ⟨hmore, e⟩ | ⟨hlast, e⟩ := execConstruct_payload_kept (b := b) hp hd hi hcap
  · exact ⟨_, e, rfl, hcount, hread, hother, fun _ => ⟨rfl, rfl⟩, fun hlast => absurd hlast hmore.ne⟩
  · have hfit : (byteStored b s).lengthFits := by
      change s.length.toNat ≤ s.capacity.val
      omega
    exact ⟨_, e, rfl, hcount, hread, hother, fun hmore => absurd hlast hmore.ne, fun _ => ⟨rfl,
      fun hcrc => frameStatus_of_crc_eq ((frameCrc_settled_iff hfit).1 hcrc),
      fun hcrc => frameStatus_of_crc_ne fun he => hcrc ((frameCrc_settled_iff hfit).2 he)⟩⟩

/-- Settles O32: the counter moves on in one of the three outcomes only. -/
theorem counterAdvancesOnlyWhileBuilding : Obligations.CounterAdvancesOnlyWhileBuilding := by
  intro b s t h
  obtain ⟨hst, h1, hc⟩ | ⟨hst, hc⟩ | ⟨hterm, -, hc⟩ := execConstruct_counter h
  · simp [hst, h1, hc]
  · simp [hst, hc]
  · obtain ⟨hbuilding, hlost⟩ := ne_of_terminalOutcome hterm
    simp [hbuilding, hlost, hc]

/-- Settles O33: nothing is latched, but the counters that a terminal outcome leaves fix what the next byte does. -/
theorem noLatchAfterATerminalOutcome : Obligations.NoLatchAfterATerminalOutcome := by
  intro b c s t h hterm
  refine ⟨fun hp => ?_, fun hp => ?_⟩
  · obtain ⟨hp', hend⟩ := beyond_frame_of_terminal_payload hp h hterm
    exact execConstruct_payload_dropped hp' hend
  · obtain ⟨hge, hc⟩ := execConstruct_terminal h hterm
    have h9 : t.internalCounter = 9 := by omega
    exact ⟨h9, fun u hu => lengthDecoded_length ((execConstruct_lengthHigh_stored h9).symm.trans hu)⟩

/-- Settles O35: the noise changes only what the frame after it does not look at, so the round trip goes on from there. -/
theorem noiseBeforeAFrameIsSkipped : Obligations.NoiseBeforeAFrameIsSkipped := by
  intro u tx rx noise hpack hrx hw hfit hnoise
  obtain ⟨-, -, -, -, -, hp, -⟩ := id hrx
  obtain ⟨x, r, hskip⟩ := feed_noise hp hnoise
  obtain ⟨im, t, him, hfeed, hreq, hresp, hlen, -, -, hcells⟩ :=
    roundTripReceivesTheFrame u tx { rx with result := r } hpack hrx hw hfit
  have hne : im ≠ [] := fun e => by simp [e] at hfeed
  refine ⟨im, t, him, ?_, hreq, hresp, hlen, hcells⟩
  rw [feed_append hskip, feed_withStatus hne, hfeed, List.append_assoc]

/-- Settles O36: a received frame is past position 9, and a stream that is past the header has taken both its bytes. -/
theorem noFrameWithoutTheMagicHeader : Obligations.NoFrameWithoutTheMagicHeader := by
  intro bs rx t hrx h hst
  obtain ⟨-, -, -, -, -, hp, -, hok⟩ := hrx
  have h9 := internalCounter_of_feed_terminal (by rw [hok]; rfl) h (by rw [hst]; rfl)
  obtain h0 | ⟨h1, -⟩ | ⟨-, hhead, cs, ds, before, behind, rfl, htaken⟩ := headerProgress_of_feed hp h
  · omega
  · omega
  · refine ⟨hhead, cs.length, before, behind, ?_⟩
    simpa [List.take_length_add_append] using htaken

/-- Settles O37: the changed frame is a packet's, taken in like any other, and its checksum does not match. -/
theorem singleByteErrorIsDetected : Obligations.SingleByteErrorIsDetected := by
  intro u tx rx im j b hlt hpack him hrx hw hfit hj hb
  obtain ⟨hu, ⟨hm, hcrc⟩, etx⟩ := commitFrame_next hpack
  have hl : tx.lengthFits := by rw [etx]; exact hu
  obtain ⟨-, -, -, -, -, hp, hd, -⟩ := hrx
  rw [image_eq hl, Option.some.injEq] at him
  subst him
  obtain ⟨g, hhead, hlen, hg⟩ := exists_frame_set (b := b) hl hj
  rw [frameCrc_eq hl, Option.some.injEq] at hcrc
  have hst : frameStatus g = .checksumError := by
    rcases Nat.lt_or_ge j 4 with h4 | h4
    · exact frameStatus_of_checksum_set hcrc hlt hb hg (by omega) h4
    · exact frameStatus_of_covered_set hcrc hlt hb hg h4
  obtain ⟨m, hfeed, -⟩ := feed_frame (hhead.trans hm) hp hd hw (hlen ▸ hfit)
  rw [hg, hst, hlen] at hfeed
  exact ⟨_, hfeed⟩

end Sys2Proof.Machine
end

section
/-! SUPPORT. Two states that one sequence of operations cannot tell apart (43_reset_access.md R158): they agree on every
register and on the cells known to both, or on all but `checksum` and what validating it decides. One rule for each update
of the state, then one lemma for each operation with cases, then all operations together. -/

namespace Sys2Proof.Machine

/-- Two statuses agree; strictly, or up to whether a completed frame's checksum matched (40_checksum.md R106). -/
def statusAlike (strict : Prop) (x y : Status) : Prop := x.upToValidation = y.upToValidation ∧ (strict → x = y)

/-- Two states, with canonical buffers, agree on the known cells, on every register but `checksum` and `status`, and on
these two strictly or up to validation. The payload bytes that CONSTRUCT has counted are among the known cells. -/
structure Alike (strict : Prop) (known : Nat → Prop) (s t : State) : Prop where
  capacity : s.capacity = t.capacity
  header : s.header = t.header
  checksum : strict → s.checksum = t.checksum
  request : s.request = t.request
  response : s.response = t.response
  length : s.length = t.length
  internalCounter : s.internalCounter = t.internalCounter
  dataLengthCounter : s.dataLengthCounter = t.dataLengthCounter
  status : statusAlike strict s.status t.status
  cells : ∀ a, known a → memRead s a = memRead t a
  counted : ∀ a, a < s.dataLengthCounter.toNat → known a
  wfLeft : Memory.wf s.data = true
  wfRight : Memory.wf t.data = true

/-- Two answers are alike: both refused for the same reason, which `stops` allows, or both next states, in relation `R`. -/
def answersAlike (stops : Prop) (R : State → State → Prop) (o o' : Answer) : Prop :=
  (stops ∧ ∃ r, o = .refused r ∧ o' = .refused r) ∨ ∃ s t, o = .next s ∧ o' = .next t ∧ R s t

variable {strict stops : Prop} {known : Nat → Prop} {s t : State}

theorem statusAlike.refl (x : Status) : statusAlike strict x x := ⟨rfl, fun _ => rfl⟩

/-! ### Answers -/

theorem answersAlike_next {R : State → State → Prop} (h : R s t) : answersAlike stops R (.next s) (.next t) :=
  Or.inr ⟨s, t, rfl, rfl, h⟩

theorem answersAlike_refused {R : State → State → Prop} (h : stops) (r : Refusal) :
    answersAlike stops R (.refused r) (.refused r) := Or.inl ⟨h, r, rfl, rfl⟩

theorem answersAlike.mono {stops' : Prop} {R R' : State → State → Prop} {o o' : Answer}
    (h : answersAlike stops R o o') (hstop : stops → stops') (hR : ∀ s t, R s t → R' s t) :
    answersAlike stops' R' o o' := by
  obtain ⟨hs, r, e, e'⟩ | ⟨s, t, e, e', hst⟩ := h
  · exact Or.inl ⟨hstop hs, r, e, e'⟩
  · exact Or.inr ⟨s, t, e, e', hR s t hst⟩

/-! ### Updates of the state -/

/-- MemRead looks at the capacity and, inside it, at the buffer. -/
theorem memRead_eq_of_read_eq {a : Nat} (hc : s.capacity = t.capacity)
    (hd : a < s.capacity.val → Memory.read s.data a = Memory.read t.data a) : memRead s a = memRead t a := by
  by_cases ha : a < s.capacity.val
  · rw [memRead_of_lt ha, memRead_of_lt (hc ▸ ha), hd ha]
  · rw [memRead_of_not_lt ha, memRead_of_not_lt (hc ▸ ha)]

section
variable (h : Alike strict known s t)
include h

theorem Alike.read_eq {a : Nat} (ha : known a) (hc : a < s.capacity.val) :
    Memory.read s.data a = Memory.read t.data a := by
  have hcell := h.cells a ha
  rw [memRead_of_lt hc, memRead_of_lt (h.capacity ▸ hc)] at hcell
  exact Option.some.inj hcell

theorem Alike.known_congr {known' : Nat → Prop} (hk : ∀ a, known' a ↔ known a) : Alike strict known' s t := by
  rwa [show known' = known from funext fun a => propext (hk a)]

/-- An operation that writes no cell makes none known. -/
theorem Alike.or_none {written : Nat → Prop} (hw : ∀ a, ¬written a) : Alike strict (fun a => known a ∨ written a) s t :=
  h.known_congr fun a => or_iff_left (hw a)

/-- The result output counts for nothing. -/
theorem Alike.answer (st st' : Status) (v v' : Halfword) (r r' : Option (List Byte)) :
    Alike strict known (s.answer st v r) (t.answer st' v' r') := { h with }

/-- Nor does the count of draws. -/
theorem Alike.drawn : Alike strict known s.drawn t.drawn := { h with }

theorem Alike.settled {st st' : Status} (hst : statusAlike strict st st') :
    Alike strict known (s.settled st) (t.settled st') := { h with status := hst }

theorem Alike.withHeader {v w : Halfword} (e : v = w) : Alike strict known (s.withHeader v) (t.withHeader w) :=
  { h with header := e }

theorem Alike.withChecksum {v w : Halfword} (e : strict → v = w) :
    Alike strict known (s.withChecksum v) (t.withChecksum w) := { h with checksum := e }

theorem Alike.withRequest {v w : Halfword} (e : v = w) : Alike strict known (s.withRequest v) (t.withRequest w) :=
  { h with request := e }

theorem Alike.withResponse {v w : Halfword} (e : v = w) : Alike strict known (s.withResponse v) (t.withResponse w) :=
  { h with response := e }

theorem Alike.withLength {v w : Halfword} (e : v = w) : Alike strict known (s.withLength v) (t.withLength w) :=
  { h with length := e }

theorem Alike.withCounter {n k : Nat} (e : n = k) : Alike strict known (s.withCounter n) (t.withCounter k) :=
  { h with internalCounter := e }

/-- A GET_BYTE that returned a byte; the bytes may differ. -/
theorem Alike.byteEmitted (b c : Byte) : Alike strict known (s.byteEmitted b) (t.byteEmitted c) :=
  { h with internalCounter := congrArg (· + 1) h.internalCounter, status := .refl _ }

/-- A lazy reset: what differed in `checksum` and `status` is gone (43_reset_access.md R151). -/
theorem Alike.clearFraming : Alike strict known s.clearFraming t.clearFraming where
  capacity := h.capacity
  header := rfl
  checksum _ := rfl
  request := rfl
  response := rfl
  length := rfl
  internalCounter := rfl
  dataLengthCounter := rfl
  status := .refl _
  cells := h.cells
  counted a ha := absurd ha (Nat.not_lt_zero a)
  wfLeft := h.wfLeft
  wfRight := h.wfRight

/-- New buffers, which agree on more cells. -/
theorem Alike.withData {known' : Nat → Prop} {m m' : Memory} (hw : Memory.wf m = true) (hw' : Memory.wf m' = true)
    (hm : ∀ a, a < s.capacity.val → known' a → Memory.read m a = Memory.read m' a) (hk : ∀ a, known a → known' a) :
    Alike strict known' (s.withData m) (t.withData m') :=
  { h with
    cells := fun a ha => memRead_eq_of_read_eq h.capacity fun hc => hm a hc ha
    counted := fun a ha => hk a (h.counted a ha)
    wfLeft := hw
    wfRight := hw' }

/-- CONSTRUCT stores the byte at the same position of the frame, hence in the same lane (42_inbound.md R142). -/
theorem Alike.laneStored_alike (b : Byte) : Alike strict known (laneStored b s) (laneStored b t) := by
  simp only [laneStored, ← h.internalCounter]
  split
  · exact h.withHeader (by rw [h.header])
  · exact h.withHeader (by rw [h.header])
  · exact h.withChecksum fun hs => by rw [h.checksum hs]
  · exact h.withChecksum fun hs => by rw [h.checksum hs]
  · exact h.withRequest (by rw [h.request])
  · exact h.withRequest (by rw [h.request])
  · exact h.withResponse (by rw [h.response])
  · exact h.withResponse (by rw [h.response])
  · exact h.withLength (by rw [h.length])
  · exact h.withLength (by rw [h.length])
  · exact h

/-- CONSTRUCT stores the byte in the same cell, which is known from then on (42_inbound.md R138). -/
theorem Alike.byteStored_alike (b : Byte) :
    Alike strict (fun a => known a ∨ a = s.dataLengthCounter.toNat) (byteStored b s) (byteStored b t) := by
  have hdata := h.withData (known' := fun a => known a ∨ a = s.dataLengthCounter.toNat)
    (Memory.wf_write s.dataLengthCounter.toNat b h.wfLeft) (Memory.wf_write t.dataLengthCounter.toNat b h.wfRight)
    (fun a hc ha => by
      rw [← h.dataLengthCounter]
      by_cases heq : a = s.dataLengthCounter.toNat
      · rw [heq, Memory.read_write_same _ b h.wfLeft, Memory.read_write_same _ b h.wfRight]
      · rw [Memory.read_write_other _ b heq, Memory.read_write_other _ b heq,
          h.read_eq (ha.resolve_right heq) hc])
    fun _ => Or.inl
  refine { hdata with dataLengthCounter := by simp [byteStored, h.dataLengthCounter], counted := fun a ha => ?_ }
  have hnext : a < (s.dataLengthCounter + 1#16).toNat := ha
  rw [BitVec.toNat_add, BitVec.toNat_ofNat] at hnext
  rcases Nat.lt_or_ge a s.dataLengthCounter.toNat with hlt | hge
  · exact Or.inl (h.counted a hlt)
  · exact Or.inr (by omega)

/-! ### Frames -/

theorem Alike.lengthFits_iff : s.lengthFits ↔ t.lengthFits := by
  rw [State.lengthFits, State.lengthFits, h.capacity, h.length]

/-- A frame whose payload cells are known has one payload. -/
theorem Alike.validBytes_eq (hl : s.lengthFits) (hk : ∀ a, a < s.length.toNat → known a) :
    s.validBytes = t.validBytes :=
  (validBytes_congr h.length.symm fun a ha => (h.read_eq (hk a ha) (Nat.lt_of_lt_of_le ha hl)).symm).symm

/-- Such a frame has one checksum (40_checksum.md R104). -/
theorem Alike.crc_eq (hl : s.lengthFits) (hk : ∀ a, a < s.length.toNat → known a) :
    crc16 (coveredBytes s) = crc16 (coveredBytes t) := by
  rw [coveredBytes, coveredBytes, h.request, h.response, h.length, h.validBytes_eq hl hk]

/-- Such a frame has one outcome where the checksums to be validated agree, and in any case a validation's outcome. -/
theorem Alike.frameStatus_alike (hl : s.lengthFits) (hk : ∀ a, a < s.length.toNat → known a) :
    statusAlike strict (frameStatus s) (frameStatus t) := by
  have hclass (u : State) : (frameStatus u).upToValidation = .packetReceived := by
    rw [frameStatus]
    split <;> rfl
  refine ⟨(hclass s).trans (hclass t).symm, fun hs => ?_⟩
  rw [frameStatus, frameStatus, h.crc_eq hl hk, h.checksum hs]

theorem Alike.framingBytes_eq (hs : strict) : framingBytes s = framingBytes t := by
  rw [framingBytes, framingBytes, h.header, h.checksum hs, h.request, h.response, h.length]

/-! ### CONSTRUCT -/

theorem Alike.completeFrame_alike (hk : ∀ a, a < s.length.toNat → known a) :
    answersAlike (¬s.lengthFits) (Alike strict known) (completeFrame s) (completeFrame t) := by
  by_cases hl : s.lengthFits
  · rw [completeFrame_settled hl, completeFrame_settled (h.lengthFits_iff.1 hl)]
    exact answersAlike_next (h.settled (h.frameStatus_alike hl hk))
  · rw [completeFrame_refused hl, completeFrame_refused (mt h.lengthFits_iff.2 hl)]
    exact answersAlike_refused hl _

/-- Position 9 never stops: a length of zero fits (42_inbound.md R137). -/
theorem Alike.lengthDecoded_alike :
    answersAlike False (Alike strict known) (lengthDecoded s) (lengthDecoded t) := by
  by_cases hz : s.length = 0x0000#16
  · have hno (a : Nat) (ha : a < s.length.toNat) : known a := by simp [hz] at ha
    rw [lengthDecoded_zero hz, lengthDecoded_zero (h.length ▸ hz)]
    exact (h.completeFrame_alike hno).mono (fun hl => hl (lengthFits_of_length_zero hz)) fun _ _ => id
  by_cases hl : s.lengthFits
  · rw [lengthDecoded_fits hz hl, lengthDecoded_fits (h.length ▸ hz) (h.lengthFits_iff.1 hl)]
    exact answersAlike_next ((h.withCounter (by rw [h.internalCounter])).settled (.refl _))
  · rw [lengthDecoded_rejected (Nat.lt_of_not_le hl),
      lengthDecoded_rejected (Nat.lt_of_not_le (mt h.lengthFits_iff.2 hl))]
    exact answersAlike_next (h.settled (.refl _))

/-- A frame that completes has had every byte of its payload counted, so its cells are known (10_state.md R28). -/
theorem Alike.payloadStored_alike :
    answersAlike (¬s.lengthFits) (Alike strict known) (payloadStored s) (payloadStored t) := by
  rw [payloadStored, payloadStored, ← h.dataLengthCounter, ← h.length]
  split
  · rename_i hdone
    exact h.completeFrame_alike fun a ha => h.counted a (hdone ▸ ha)
  · rw [advance_eq, advance_eq, ← h.internalCounter]
    exact answersAlike_next ((h.withCounter rfl).settled (.refl _))

theorem Alike.execConstruct_field_alike (b : Byte) (hp : s.internalCounter ≤ 9) :
    answersAlike False (Alike strict known) (execConstruct b s) (execConstruct b t) := by
  obtain h9 | h8 := Nat.eq_or_lt_of_le hp
  · rw [execConstruct_lengthHigh_stored h9, execConstruct_lengthHigh_stored (h.internalCounter ▸ h9)]
    exact (h.withLength (by rw [h.length])).lengthDecoded_alike
  by_cases hb : s.internalCounter ≤ 1 → b = Config.magicByte
  · rw [execConstruct_lane_stored (Nat.le_of_lt_succ h8) hb,
      execConstruct_lane_stored (h.internalCounter ▸ Nat.le_of_lt_succ h8) (h.internalCounter ▸ hb)]
    exact answersAlike_next (((h.laneStored_alike b).withCounter (by rw [h.internalCounter])).settled (.refl _))
  · obtain ⟨h1, hne⟩ := Classical.not_imp.1 hb
    rw [execConstruct_header_lost h1 hne, execConstruct_header_lost (h.internalCounter ▸ h1) hne]
    exact answersAlike_next ((h.withCounter rfl).settled (.refl _))

theorem Alike.execConstruct_payload_alike (b : Byte) (hp : 10 ≤ s.internalCounter) :
    answersAlike (¬s.lengthFits) (Alike strict fun a => known a ∨ writesCell (.construct b) s a)
      (execConstruct b s) (execConstruct b t) := by
  have hpt : 10 ≤ t.internalCounter := h.internalCounter ▸ hp
  by_cases hend : s.length.toNat ≤ s.dataLengthCounter.toNat ∨ s.length.toNat ≤ s.internalCounter - 10
  · rw [execConstruct_payload_dropped hp hend, execConstruct_payload_dropped hpt
      (by rwa [← h.length, ← h.dataLengthCounter, ← h.internalCounter])]
    refine answersAlike_next ((h.settled (.refl _)).or_none fun a hw => ?_)
    obtain ⟨-, hi, hd, -⟩ := hw
    omega
  obtain ⟨hd, hi⟩ : s.dataLengthCounter.toNat < s.length.toNat ∧ s.internalCounter - 10 < s.length.toNat := by omega
  rw [execConstruct_payload_inside hp hd hi, execConstruct_payload_inside hpt
    (by rwa [← h.length, ← h.dataLengthCounter]) (by rwa [← h.length, ← h.internalCounter])]
  by_cases hcap : s.dataLengthCounter.toNat < s.capacity.val
  · rw [memWrite_of_lt b hcap, memWrite_of_lt b (by rwa [← h.dataLengthCounter, ← h.capacity])]
    refine (h.byteStored_alike b).payloadStored_alike.mono id fun _ _ hst => hst.known_congr fun a => ?_
    simp [writesCell, hp, hi, hd]
  · rw [memWrite_of_not_lt b hcap, memWrite_of_not_lt b (by rwa [← h.dataLengthCounter, ← h.capacity])]
    refine answersAlike_refused ?_ _
    simp only [State.lengthFits]
    omega

/-- CONSTRUCT, whose cells are all known, is refused only from position 10 on, while the length does not fit. -/
theorem Alike.execConstruct_alike (b : Byte) :
    answersAlike (¬s.lengthFits ∧ 10 ≤ s.internalCounter)
      (Alike strict fun a => known a ∨ writesCell (.construct b) s a) (execConstruct b s) (execConstruct b t) := by
  rcases Nat.lt_or_ge s.internalCounter 10 with hp | hp
  · exact (h.execConstruct_field_alike b (Nat.le_of_lt_succ hp)).mono False.elim fun _ _ hst =>
      hst.or_none fun a hw => absurd hw.left (Nat.not_le.2 hp)
  · exact (h.execConstruct_payload_alike b hp).mono (⟨·, hp⟩) fun _ _ => id

/-! ### The outbound operations and GET_DATA -/

theorem Alike.appendPayload_alike (q : List Byte) :
    answersAlike False (Alike strict fun a => known a ∨ writesCell (.addData q) s a)
      (appendPayload q s) (appendPayload q t) := by
  by_cases hfit : q.length + s.length.toNat ≤ s.capacity.val
  · obtain ⟨m, e, hwf, -, hout, hval⟩ := appendPayload_fits hfit
    obtain ⟨m', e', hwf', -, hout', hval'⟩ := appendPayload_fits (s := t) (q := q) (by rwa [← h.length, ← h.capacity])
    rw [← h.length] at hout' hval'
    have hdata := h.withData (known' := fun a => known a ∨ writesCell (.addData q) s a) (hwf h.wfLeft)
      (hwf' h.wfRight) (fun a hc ha => by
        by_cases hin : s.length.toNat ≤ a ∧ a < s.length.toNat + q.length
        · obtain ⟨k, rfl⟩ := Nat.exists_eq_add_of_le hin.1
          rw [hval h.wfLeft k (by omega), hval' h.wfRight k (by omega)]
        · rw [hout a (by omega), hout' a (by omega), h.read_eq (ha.resolve_right fun hw => hin hw.2) hc])
      fun _ => Or.inl
    rw [e, e']
    exact answersAlike_next ((hdata.withLength (by rw [h.length])).settled (.refl .ok))
  · rw [appendPayload_overflow (Nat.lt_of_not_le hfit), appendPayload_overflow
      (by rw [← h.length, ← h.capacity]; exact Nat.lt_of_not_le hfit)]
    exact answersAlike_next ((h.settled (.refl .packetOverflow)).or_none fun a hw => hfit hw.left)

theorem Alike.commitFrame_alike (hk : strict → s.lengthFits → ∀ a, a < s.length.toNat → known a) :
    answersAlike (¬s.lengthFits) (Alike strict known) (commitFrame s) (commitFrame t) := by
  by_cases hl : s.lengthFits
  · rw [commitFrame_fits hl, commitFrame_fits (h.lengthFits_iff.1 hl)]
    exact answersAlike_next (((h.withChecksum fun hs => h.crc_eq hl (hk hs hl)).withHeader rfl).answer _ _ _ _ _ _)
  · rw [commitFrame_refused hl, commitFrame_refused (mt h.lengthFits_iff.2 hl)]
    exact answersAlike_refused hl _

/-- Two built frames of the same fields and payload agree on every register (41_outbound.md R114 to R116). -/
theorem Alike.builtFrame_alike {a b : Halfword} {q : List Byte} {s' t' : State} (hs : builtFrame a b q s s')
    (ht : builtFrame a b q t t') (hw : Memory.wf s'.data = true) (hw' : Memory.wf t'.data = true) :
    Alike strict (fun k => known k ∨ k < q.length) s' t' := by
  obtain ⟨shd, sreq, sresp, slen, sck, sic, sdc, sst, -, scap, -, -, sin, sout⟩ := hs
  obtain ⟨thd, treq, tresp, tlen, tck, tic, tdc, tst, -, tcap, -, -, tin, tout⟩ := ht
  exact {
    capacity := by rw [scap, tcap, h.capacity]
    header := by rw [shd, thd]
    checksum := fun _ => by rw [sck, tck]
    request := by rw [sreq, treq]
    response := by rw [sresp, tresp]
    length := by rw [slen, tlen]
    internalCounter := by rw [sic, tic]
    dataLengthCounter := by rw [sdc, tdc]
    status := by rw [sst, tst]; exact .refl _
    cells := fun k hk => by
      by_cases hin : k < q.length
      · rw [sin k hin, tin k hin]
      · rw [sout k (Nat.le_of_not_lt hin), tout k (Nat.le_of_not_lt hin), h.cells k (hk.resolve_right hin)]
    counted := fun k hk => absurd hk (by simp [sdc])
    wfLeft := hw
    wfRight := hw' }

/-- A builder writes every cell it reads, so it needs to know none before. -/
theorem Alike.buildFrame_alike (a b : Halfword) (q : List Byte) :
    answersAlike False (Alike strict fun k => known k ∨ q.length ≤ s.capacity.val ∧ k < q.length)
      (buildFrame a b q s) (buildFrame a b q t) := by
  by_cases hfit : q.length ≤ s.capacity.val
  · obtain ⟨s', e, hs, hw, -⟩ := buildFrame_fits (a := a) (b := b) hfit h.wfLeft
    obtain ⟨t', e', ht, hw', -⟩ := buildFrame_fits (a := a) (b := b) (h.capacity ▸ hfit) h.wfRight
    rw [e, e']
    exact answersAlike_next ((h.builtFrame_alike hs ht hw hw').known_congr fun k => by simp [hfit])
  · rw [buildFrame_overflow (Nat.lt_of_not_le hfit), buildFrame_overflow (Nat.lt_of_not_le (h.capacity ▸ hfit))]
    have hcleared := ((h.clearFraming.withRequest (rfl : a = a)).withResponse (rfl : b = b)).settled
      (.refl .packetOverflow)
    exact answersAlike_next (hcleared.or_none fun k hw => hfit hw.left)

theorem Alike.execBytes_alike :
    answersAlike (¬s.lengthFits) (Alike strict known) (execBytes s) (execBytes t) := by
  by_cases hl : s.lengthFits
  · rw [execBytes_fits hl, execBytes_fits (h.lengthFits_iff.1 hl)]
    exact answersAlike_next (h.answer _ _ _ _ _ _)
  · rw [execBytes_refused hl, execBytes_refused (mt h.lengthFits_iff.2 hl)]
    exact answersAlike_refused hl _

theorem Alike.execGetByte_alike :
    answersAlike (¬s.lengthFits) (Alike strict known) (execGetByte s) (execGetByte t) := by
  rcases Nat.lt_or_ge s.internalCounter (10 + s.length.toNat) with hp | hp
  · have hpt : t.internalCounter < 10 + t.length.toNat := by rwa [← h.internalCounter, ← h.length]
    by_cases hcell : s.internalCounter < 10 ∨ s.internalCounter - 10 < s.capacity.val
    · obtain ⟨b, hb⟩ := imageByte_exists hcell
      obtain ⟨c, hc⟩ := imageByte_exists (s := t) (h.internalCounter ▸ h.capacity ▸ hcell)
      rw [execGetByte_byte hp hb, execGetByte_byte hpt hc]
      exact answersAlike_next (h.byteEmitted b c)
    · obtain ⟨h10, hcap⟩ := not_or.1 hcell
      have hno {u : State} (h10 : ¬u.internalCounter < 10) (hcap : ¬u.internalCounter - 10 < u.capacity.val) :
          imageByte u u.internalCounter = none :=
        (imageByte_payload (Nat.le_of_not_lt h10)).trans (memRead_of_not_lt hcap)
      rw [execGetByte_refused hp (hno h10 hcap), execGetByte_refused hpt
        (hno (h.internalCounter ▸ h10) (by rwa [← h.internalCounter, ← h.capacity]))]
      refine answersAlike_refused ?_ _
      simp only [State.lengthFits]
      omega
  · rw [execGetByte_finished hp, execGetByte_finished (by rwa [← h.internalCounter, ← h.length])]
    exact answersAlike_next ((h.withCounter rfl).settled (.refl _))

end

/-! ### GET_DATA, case by case (43_reset_access.md R157) -/

theorem execGetData_valid {a : Halfword} (hl : a.toNat < s.length.toNat) (hc : a.toNat < s.capacity.val) :
    execGetData a s = .next (s.answer .ok (zext16 (Memory.read s.data a.toNat)) none) := by
  rw [execGetData, if_pos hl, memRead_of_lt hc]
  rfl

theorem execGetData_refused {a : Halfword} (hl : a.toNat < s.length.toNat) (hc : s.capacity.val ≤ a.toNat) :
    execGetData a s = .refused .dataIndexOutOfRange := by
  rw [execGetData, if_pos hl, memRead_of_not_lt (Nat.not_lt.2 hc)]
  rfl

theorem execGetData_drawn {a : Halfword} (hl : s.length.toNat ≤ a.toNat) :
    execGetData a s = .next (s.drawn.answer .ok (zext16 (Config.unspecifiedByte s.draws)) none) := by
  rw [execGetData, if_neg (Nat.not_lt.2 hl)]
  rfl

theorem Alike.execGetData_alike (h : Alike strict known s t) (a : Halfword) :
    answersAlike (¬s.lengthFits) (Alike strict known) (execGetData a s) (execGetData a t) := by
  rcases Nat.lt_or_ge a.toNat s.length.toNat with hl | hl
  · have hlt : a.toNat < t.length.toNat := h.length ▸ hl
    rcases Nat.lt_or_ge a.toNat s.capacity.val with hc | hc
    · rw [execGetData_valid hl hc, execGetData_valid hlt (h.capacity ▸ hc)]
      exact answersAlike_next (h.answer _ _ _ _ _ _)
    · rw [execGetData_refused hl hc, execGetData_refused hlt (h.capacity ▸ hc)]
      exact answersAlike_refused (Nat.not_le.2 (Nat.lt_of_le_of_lt hc hl)) _
  · rw [execGetData_drawn hl, execGetData_drawn (h.length ▸ hl)]
    exact answersAlike_next (h.drawn.answer _ _ _ _ _ _)

/-! ### All operations -/

/-- The operation may be refused: one that reads the payload, or a CONSTRUCT from position 10 on, while the length does
not fit (60_exceptions.md R190). -/
def refusable : Instr → State → Prop
  | .pack, s | .bytes, s | .getByte, s | .getData _, s => ¬s.lengthFits
  | .construct _, s => ¬s.lengthFits ∧ 10 ≤ s.internalCounter
  | _, _ => False

theorem not_refusable_of_lengthFits {i : Instr} (hl : s.lengthFits) : ¬refusable i s := by
  cases i with
  | pack | bytes | getByte | getData _ => exact not_not.2 hl
  | construct b => exact fun hr => hr.left hl
  | _ => exact id

/-- Every operation keeps two states alike; strictly so unless PACK carries a cell that is not known into `checksum`. -/
theorem Alike.exec_alike {i : Instr} (h : Alike strict known s t) (hpack : strict → i = .pack → readsKnown known i s) :
    answersAlike (refusable i s) (Alike strict fun a => known a ∨ writesCell i s a) (exec i s) (exec i t) := by
  cases i with
  | reset =>
    exact answersAlike_next ((h.clearFraming.withData rfl rfl (fun _ _ _ => rfl) fun _ => Or.inl).settled (.refl .ok))
  | resetLazy =>
    simp only [writesCell, or_false]
    exact answersAlike_next (h.clearFraming.settled (.refl .ok))
  | setRequest a =>
    simp only [writesCell, or_false]
    exact answersAlike_next ((h.withRequest rfl).answer _ _ _ _ _ _)
  | setResponse a =>
    simp only [writesCell, or_false]
    exact answersAlike_next ((h.withResponse rfl).answer _ _ _ _ _ _)
  | crc16 _ | getRequest | getResponse | getLength | getChecksum | getStatus =>
    simp only [writesCell, or_false]
    exact answersAlike_next (h.answer _ _ _ _ _ _)
  | addData q => exact (h.appendPayload_alike q).mono False.elim fun _ _ => id
  | pack =>
    simp only [writesCell, or_false]
    refine h.commitFrame_alike fun hs hl a ha => ?_
    exact (hpack hs rfl a (Nat.lt_of_lt_of_le ha hl) ⟨hl, ha⟩).elim id (h.counted a)
  | packData a q => exact (h.buildFrame_alike a _ q).mono False.elim fun _ _ => id
  | packError a b q => exact (h.buildFrame_alike a b q).mono False.elim fun _ _ => id
  | packId q => exact (h.buildFrame_alike _ _ q).mono False.elim fun _ _ => id
  | bytes =>
    simp only [writesCell, or_false]
    exact h.execBytes_alike
  | getByte =>
    simp only [writesCell, or_false]
    exact h.execGetByte_alike
  | construct b => exact h.execConstruct_alike b
  | getData a =>
    simp only [writesCell, or_false]
    exact h.execGetData_alike a

end Sys2Proof.Machine
end

section
/-! SUPPORT. The results of two such states: their statuses agree as the states do, and where every cell read is known
and nothing is drawn, they are equal (43_reset_access.md R158). -/

namespace Sys2Proof.Machine

variable {strict : Prop} {known : Nat → Prop} {i : Instr} {s t s' t' : State}

/-- The statuses of the results agree if the status registers do (30_encoding.md R82). -/
theorem exec_results_statusAlike (hs : exec i s = .next s') (ht : exec i t = .next t')
    (hst : statusAlike strict s'.status t'.status) :
    ∃ x y, s'.result = some x ∧ t'.result = some y ∧ statusAlike strict x.st y.st := by
  by_cases hv : statusValues i = []
  · obtain ⟨x, hx, hxst⟩ := exec_answeredWith_ok hs hv
    obtain ⟨y, hy, hyst⟩ := exec_answeredWith_ok ht hv
    exact ⟨x, y, hx, hy, hxst ▸ hyst ▸ .refl _⟩
  · obtain ⟨x, hx, hxst⟩ := exec_answeredWith_status hs hv
    obtain ⟨y, hy, hyst⟩ := exec_answeredWith_status ht hv
    exact ⟨x, y, hx, hy, by rwa [hxst, hyst]⟩

/-- Every operation keeps two states alike, and the statuses of its results agree as theirs do. -/
theorem Alike.exec_statuses {α : Type} {f : Status → α} (h : Alike strict known s t)
    (hf : ∀ x y, statusAlike strict x y → f x = f y) (hpack : strict → i = .pack → readsKnown known i s) :
    answersAlike True (fun s' t' => s'.results.map (f ·.st) = t'.results.map (f ·.st) ∧
      Alike strict (fun a => known a ∨ writesCell i s a) s' t') (exec i s) (exec i t) := by
  obtain ⟨-, hstop⟩ | ⟨s', t', hs, ht, hst⟩ := h.exec_alike hpack
  · exact Or.inl ⟨trivial, hstop⟩
  · obtain ⟨x, y, hx, hy, hxy⟩ := exec_results_statusAlike hs ht hst.status
    refine Or.inr ⟨s', t', hs, ht, ?_, hst⟩
    simp only [State.results, hx, hy, Option.toList, List.map_cons, List.map_nil, hf _ _ hxy]

theorem appendPayload_result {q : List Byte} (h : appendPayload q s = .next t) :
    t.result = resultOf t.status 0x0000#16 := by
  obtain ⟨-, rfl⟩ | ⟨-, m, rfl, -⟩ := appendPayload_next h <;> rfl

theorem buildFrame_result {a b : Halfword} {q : List Byte} (h : buildFrame a b q s = .next t) :
    t.result = resultOf t.status 0x0000#16 := by
  obtain ⟨-, rfl⟩ | ⟨-, -, et, -⟩ := buildFrame_next h
  · rfl
  · rw [et]

theorem execConstruct_result {b : Byte} (h : execConstruct b s = .next t) :
    t.result = resultOf t.status 0x0000#16 := by
  rcases Nat.lt_or_ge s.internalCounter 10 with hp | hp
  · obtain ⟨-, -, rfl⟩ | ⟨-, -, rfl⟩ | ⟨-, -, rfl⟩ | ⟨-, -, st, -, rfl⟩ :=
      execConstruct_field_next (Nat.le_of_lt_succ hp) h <;> rfl
  · obtain ⟨-, rfl⟩ | ⟨-, -, -, -, ⟨-, rfl⟩ | ⟨-, -, st, -, rfl⟩⟩ := execConstruct_payload_next hp h <;> rfl

/-- Where the cells that exist and are read are known, the operation reads only known cells. -/
theorem Alike.reads (h : Alike strict known s t) (hr : readsKnown known i s) {a : Nat} (hc : a < s.capacity.val)
    (ha : readsCell i s a) : known a := (hr a hc ha).elim id (h.counted a)

section
variable (h : Alike True known s t)
include h

theorem Alike.execBytes_result (hr : readsKnown known .bytes s) (hs : execBytes s = .next s')
    (ht : execBytes t = .next t') : s'.result = t'.result := by
  obtain ⟨hl, rfl⟩ := execBytes_next hs
  obtain ⟨-, rfl⟩ := execBytes_next ht
  have hk (a : Nat) (ha : a < s.length.toNat) : known a := h.reads hr (Nat.lt_of_lt_of_le ha hl) ⟨hl, ha⟩
  rw [h.framingBytes_eq trivial, h.validBytes_eq hl hk]
  rfl

/-- The byte at the cursor is a framing byte, or a known cell, or one that exists in neither state. -/
theorem Alike.imageByte_eq (hr : readsKnown known .getByte s) (hp : s.internalCounter < 10 + s.length.toNat) :
    imageByte s s.internalCounter = imageByte t s.internalCounter := by
  rcases Nat.lt_or_ge s.internalCounter 10 with hlt | hge
  · rw [imageByte, imageByte, if_pos hlt, if_pos hlt, h.framingBytes_eq trivial]
  · rw [imageByte_payload hge, imageByte_payload hge]
    exact memRead_eq_of_read_eq h.capacity fun hc => h.read_eq (h.reads hr hc ⟨hge, hp, rfl⟩) hc

theorem Alike.execGetByte_result (hr : readsKnown known .getByte s) (hs : execGetByte s = .next s')
    (ht : execGetByte t = .next t') : s'.result = t'.result := by
  obtain ⟨hp, b, hb, rfl⟩ | ⟨hp, rfl⟩ := execGetByte_next hs <;>
    obtain ⟨hpt, c, hc, rfl⟩ | ⟨hpt, rfl⟩ := execGetByte_next ht <;>
    rw [← h.internalCounter, ← h.length] at hpt
  · rw [h.imageByte_eq hr hp, h.internalCounter, hc, Option.some.injEq] at hb
    rw [hb]
    rfl
  · exact absurd hp (Nat.not_lt.2 hpt)
  · exact absurd hpt (Nat.not_lt.2 hp)
  · rfl

theorem Alike.execGetData_result {a : Halfword} (hr : readsKnown known (.getData a) s)
    (hd : a.toNat < s.length.toNat) (hs : execGetData a s = .next s') (ht : execGetData a t = .next t') :
    s'.result = t'.result := by
  rcases Nat.lt_or_ge a.toNat s.capacity.val with hc | hc
  · rw [execGetData_valid hd hc] at hs
    rw [execGetData_valid (h.length ▸ hd) (h.capacity ▸ hc)] at ht
    cases hs
    cases ht
    rw [h.read_eq (h.reads hr hc ⟨hd, rfl⟩) hc]
    rfl
  · rw [execGetData_refused hd hc] at hs
    cases hs

/-- An operation that draws nothing and reads only known cells gives one result. -/
theorem Alike.exec_result (hdraw : drawsNothing i s) (hr : readsKnown known i s) (hs : exec i s = .next s')
    (ht : exec i t = .next t') (hst : s'.status = t'.status) : s'.result = t'.result := by
  cases i with
  | addData q => rw [appendPayload_result hs, appendPayload_result ht, hst]
  | packData a q => rw [buildFrame_result hs, buildFrame_result ht, hst]
  | packError a b q => rw [buildFrame_result hs, buildFrame_result ht, hst]
  | packId q => rw [buildFrame_result hs, buildFrame_result ht, hst]
  | construct b => rw [execConstruct_result hs, execConstruct_result ht, hst]
  | pack =>
    obtain ⟨-, -, rfl⟩ := commitFrame_next hs
    obtain ⟨-, -, rfl⟩ := commitFrame_next ht
    rfl
  | bytes => exact h.execBytes_result hr hs ht
  | getByte => exact h.execGetByte_result hr hs ht
  | getData a => exact h.execGetData_result hr hdraw hs ht
  | reset | resetLazy | crc16 _ | setRequest _ | setResponse _ =>
    cases hs
    cases ht
    rfl
  | getRequest =>
    cases hs
    cases ht
    exact congrArg (resultOf .ok) h.request
  | getResponse =>
    cases hs
    cases ht
    exact congrArg (resultOf .ok) h.response
  | getLength =>
    cases hs
    cases ht
    exact congrArg (resultOf .ok) h.length
  | getChecksum =>
    cases hs
    cases ht
    exact congrArg (resultOf .ok) (h.checksum trivial)
  | getStatus =>
    cases hs
    cases ht
    exact congrArg (fun st => resultOf .ok (statusWord st)) hst

/-- Such an operation keeps two states alike and gives one result. -/
theorem Alike.exec_reading (hdraw : drawsNothing i s) (hr : readsKnown known i s) :
    answersAlike (refusable i s) (fun s' t' => s'.results = t'.results ∧
      Alike True (fun a => known a ∨ writesCell i s a) s' t') (exec i s) (exec i t) := by
  obtain hstop | ⟨s', t', hs, ht, hst⟩ := h.exec_alike (fun _ _ => hr)
  · exact Or.inl hstop
  · have hres := h.exec_result hdraw hr hs ht (hst.status.right trivial)
    exact Or.inr ⟨s', t', hs, ht, by rw [State.results, State.results, hres], hst⟩

end

end Sys2Proof.Machine
end

section
/-! SUPPORT. From one operation to a script (43_reset_access.md R158): one induction, in which the relation of the two runs,
the condition on the script and what is compared of the results are parameters. -/

namespace Sys2Proof.Machine

variable {ok : (Nat → Prop) → Instr → State → Prop} {known : Nat → Prop}

/-- If every operation keeps two runs in a relation and gives results with the same image under `f`, so does a script. -/
theorem runOps_alike {α : Type} {f : Result → α} {stops : Prop} {R : (Nat → Prop) → State → State → Prop}
    (hstep : ∀ {known i s t}, R known s t → ok known i s →
      answersAlike stops (fun s' t' => s'.results.map f = t'.results.map f ∧
        R (fun a => known a ∨ writesCell i s a) s' t') (exec i s) (exec i t))
    (script : List Instr) {s t : State} (h : R known s t) (hok : scriptKeeps ok script known s) :
    (runOps script s).1.map f = (runOps script t).1.map f ∧
      answersAlike stops (R fun a => known a ∨ cellsWritten script s a) (runOps script s).2 (runOps script t).2 := by
  induction script generalizing known s t with
  | nil =>
    refine ⟨rfl, answersAlike_next ?_⟩
    simpa only [cellsWritten, or_false] using h
  | cons i is ih =>
    obtain ⟨hi, hrest⟩ := hok
    obtain ⟨hstop, r, hs, ht⟩ | ⟨s', t', hs, ht, hres, hR⟩ := hstep h hi
    · simp only [runOps, hs, ht]
      exact ⟨trivial, answersAlike_refused hstop r⟩
    · obtain ⟨hres', hend⟩ := ih hR (hrest s' hs)
      have hwritten : (fun a => known a ∨ cellsWritten (i :: is) s a) =
          fun a => (known a ∨ writesCell i s a) ∨ cellsWritten is s' a := by
        funext a
        simp [cellsWritten, hs, or_assoc]
      simp only [runOps_cons hs, runOps_cons ht, List.map_append, hres, hres', hwritten]
      exact ⟨trivial, hend⟩

/-! ### Conditions on a script, operation by operation -/

theorem scriptKeeps_of_forall (h : ∀ known i s, ok known i s) (script : List Instr) (s : State) :
    scriptKeeps ok script known s := by
  induction script generalizing known s with
  | nil => trivial
  | cons i is ih => exact ⟨h known i s, fun t _ => ih t⟩

theorem scriptKeeps_of_contract {role : Role} {script : List Instr} {s : State}
    (h : scriptKeepsContract role script s) :
    scriptKeeps (fun _ i s => contractAllows role s i ∧ readsWrittenOnly role s i) script known s := by
  induction script generalizing known s with
  | nil => trivial
  | cons i is ih =>
    obtain ⟨hc, hr, hrest⟩ := h
    exact ⟨⟨hc, hr⟩, fun t ht => ih (hrest t ht)⟩

theorem scriptKeeps_of_no_construct {script : List Instr} {s : State} (hno : ∀ b, Instr.construct b ∉ script)
    (h : scriptDrawsNothing script s) :
    scriptKeeps (fun _ i s => (∀ b, i ≠ .construct b) ∧ drawsNothing i s) script known s := by
  induction script generalizing known s with
  | nil => trivial
  | cons i is ih =>
    obtain ⟨hd, hrest⟩ := h
    exact ⟨⟨fun b e => hno b (e ▸ List.mem_cons_self), hd⟩,
      fun t ht => ih (fun b hb => hno b (List.mem_cons_of_mem i hb)) (hrest t ht)⟩

end Sys2Proof.Machine
end

section
/-! SUPPORT. The two resets, and what is known of the cells below `length`: all of them in a script without CONSTRUCT; those
that CONSTRUCT has counted in a receiver's (43_reset_access.md R158). -/

namespace Sys2Proof.Machine

variable {known : Nat → Prop} {i : Instr} {s t : State}

/-- A full and a lazy reset of one capacity leave states that are alike, with no cell known. -/
theorem resets_alike {strict : Prop} {u v : State} (hc : u.capacity = v.capacity) (hw : Memory.wf v.data = true)
    (hs : exec .reset u = .next s) (ht : exec .resetLazy v = .next t) : Alike strict (fun _ => False) s t := by
  cases hs
  cases ht
  exact {
    capacity := hc, header := rfl, checksum := fun _ => rfl, request := rfl, response := rfl, length := rfl,
    internalCounter := rfl, dataLengthCounter := rfl, status := .refl _, cells := fun _ => False.elim,
    counted := fun a ha => absurd ha (Nat.not_lt_zero a), wfLeft := rfl, wfRight := hw }

theorem reset_length {u : State} (h : exec .reset u = .next s) : s.length = 0x0000#16 := by
  cases h
  rfl

theorem Alike.agreesOn {known' : Nat → Prop} (h : Alike True known s t) (hk : ∀ a, known' a → known a) :
    s.agreesOn t known' :=
  ⟨h.capacity, h.header, h.checksum trivial, h.request, h.response, h.length, h.internalCounter,
    h.dataLengthCounter, h.status.right trivial, fun a ha => h.cells a (hk a ha)⟩

theorem Alike.agreesUpToChecksum {strict : Prop} {known' : Nat → Prop} (h : Alike strict known s t)
    (hk : ∀ a, known' a → known a) : s.agreesUpToChecksum t known' :=
  ⟨h.capacity, h.header, h.request, h.response, h.length, h.internalCounter, h.dataLengthCounter, h.status.left,
    fun a ha => h.cells a (hk a ha)⟩

/-! ### Scripts without CONSTRUCT -/

/-- The length fits, and every cell below it is known. -/
def payloadKnown (known : Nat → Prop) (s : State) : Prop := s.lengthFits ∧ ∀ a, a < s.length.toNat → known a

theorem payloadKnown_of_length_zero (h : s.length = 0x0000#16) : payloadKnown known s :=
  ⟨lengthFits_of_length_zero h, fun a ha => by simp [h] at ha⟩

theorem buildFrame_below_length {a b : Halfword} {q : List Byte} (h : buildFrame a b q s = .next t) {k : Nat}
    (hk : k < t.length.toNat) : q.length ≤ s.capacity.val ∧ k < q.length := by
  obtain ⟨-, rfl⟩ | ⟨hfit, -, et, -⟩ := buildFrame_next h
  · exact absurd hk (Nat.not_lt_zero k)
  · rw [et, BitVec.toNat_ofNat] at hk
    exact ⟨hfit, Nat.lt_of_lt_of_le hk (Nat.mod_le _ _)⟩

/-- Every operation but CONSTRUCT writes the cells by which it lengthens the payload. -/
theorem exec_below_length (hi : ∀ b, i ≠ .construct b) (h : exec i s = .next t) {a : Nat} (ha : a < t.length.toNat) :
    a < s.length.toNat ∨ writesCell i s a := by
  cases i with
  | reset | resetLazy =>
    cases h
    exact absurd ha (Nat.not_lt_zero a)
  | addData q =>
    obtain ⟨-, rfl⟩ | ⟨hfit, m, rfl, -⟩ := appendPayload_next h
    · exact Or.inl ha
    · have hlen : a < s.length.toNat + q.length := append_length_toNat hfit ▸ ha
      exact (Nat.lt_or_ge a s.length.toNat).imp_right (⟨hfit, ·, hlen⟩)
  | packData b q => exact Or.inr (buildFrame_below_length h ha)
  | packError b c q => exact Or.inr (buildFrame_below_length h ha)
  | packId q => exact Or.inr (buildFrame_below_length h ha)
  | construct b => exact absurd rfl (hi b)
  | crc16 _ | setRequest _ | setResponse _ | pack | bytes | getByte | getRequest | getResponse | getLength
  | getChecksum | getStatus | getData _ => exact Or.inl (exec_length_kept h (by simp [writes]) ▸ ha)

theorem exec_payloadKnown (hi : ∀ b, i ≠ .construct b) (h : exec i s = .next t) (hp : payloadKnown known s) :
    payloadKnown (fun a => known a ∨ writesCell i s a) t := by
  obtain ⟨hl, hk⟩ := hp
  exact ⟨lengthBoundIsKept i s t hl h fun b hb => absurd hb (hi b),
    fun a ha => (exec_below_length hi h ha).imp_left (hk a)⟩

/-- Every operation but CONSTRUCT reads below `length` only. -/
theorem readsCell_below_length (hi : ∀ b, i ≠ .construct b) {a : Nat} (h : readsCell i s a) : a < s.length.toNat := by
  cases i with
  | pack | bytes => exact h.right
  | getByte =>
    obtain ⟨h10, hlt, rfl⟩ := h
    omega
  | getData k =>
    obtain ⟨hlt, rfl⟩ := h
    exact hlt
  | construct b => exact absurd rfl (hi b)
  | reset | resetLazy | crc16 _ | setRequest _ | setResponse _ | addData _ | packData _ _ | packError _ _ _ | packId _
  | getRequest | getResponse | getLength | getChecksum | getStatus => exact h.elim

/-- Without CONSTRUCT the payload stays known, so that every read is of a known cell and none is refused. -/
theorem alike_payloadKnown_step (h : Alike True known s t ∧ payloadKnown known s) (hi : ∀ b, i ≠ .construct b)
    (hd : drawsNothing i s) :
    answersAlike False (fun s' t' => s'.results.map id = t'.results.map id ∧
      Alike True (fun a => known a ∨ writesCell i s a) s' t' ∧
        payloadKnown (fun a => known a ∨ writesCell i s a) s') (exec i s) (exec i t) := by
  obtain ⟨ha, hp⟩ := h
  obtain ⟨hl, hk⟩ := id hp
  obtain ⟨hno, -⟩ | ⟨s', t', hs, ht, hres, hst⟩ :=
    ha.exec_reading hd fun a _ hr => Or.inl (hk a (readsCell_below_length hi hr))
  · exact absurd hno (not_refusable_of_lengthFits hl)
  · exact Or.inr ⟨s', t', hs, ht, congrArg _ hres, hst, exec_payloadKnown hi hs hp⟩

/-! ### The usage contract -/

theorem transmitter_no_construct (hc : contractAllows .transmitter s i) (b : Byte) : i ≠ .construct b := by
  rintro rfl
  exact hc


/-- Once the length is complete it is one that the buffer holds (42_inbound.md R137). -/
def lengthChecked (s : State) : Prop := 10 ≤ s.internalCounter → s.lengthFits

theorem execConstruct_lengthChecked {b : Byte} (hs : lengthChecked s) (h : execConstruct b s = .next t) :
    lengthChecked t := by
  intro h10
  rcases Nat.lt_or_ge s.internalCounter 10 with hp | hp
  · obtain ⟨-, -, rfl⟩ | ⟨-, h9, rfl⟩ | ⟨h9, -, rfl⟩ | ⟨h9, -, st, -, rfl⟩ :=
      execConstruct_field_next (Nat.le_of_lt_succ hp) h
    · cases h10
    · exact (h9 (Nat.le_antisymm (Nat.le_of_lt_succ hp) (Nat.le_of_succ_le_succ h10))).right
    · exact absurd h10 (by simp [h9])
    · exact absurd h10 (by simp [h9])
  · exact lengthFits_of_length_kept (i := .construct b) (hs hp) h (by simp [writes, constructWrites_payload hp])

theorem exec_lengthChecked (hc : contractAllows .receiver s i) (hs : lengthChecked s) (h : exec i s = .next t) :
    lengthChecked t := by
  cases i with
  | construct b => exact execConstruct_lengthChecked hs h
  | reset | resetLazy =>
    cases h
    exact fun h10 => absurd h10 (Nat.not_succ_le_zero 9)
  | crc16 _ | bytes | getRequest | getResponse | getLength | getChecksum | getStatus | getData _ =>
    have hcounter : t.internalCounter = s.internalCounter :=
      (exec_framed h).registers .internalCounter (by simp [writes])
    exact fun h10 => lengthFits_of_length_kept (hs (hcounter ▸ h10)) h (by simp [writes])
  | setRequest _ | setResponse _ | addData _ | pack | packData _ _ | packError _ _ _ | packId _ | getByte => exact hc.elim

/-- A receiver that reads a payload only once it is complete reads only what CONSTRUCT has counted. -/
theorem receiver_reads_counted (hc : contractAllows .receiver s i) (hr : readsWrittenOnly .receiver s i) {a : Nat}
    (ha : readsCell i s a) : a < s.dataLengthCounter.toNat := by
  cases i with
  | construct b =>
    obtain ⟨-, -, -, hlt⟩ := ha
    exact hlt
  | bytes =>
    obtain ⟨-, hlt⟩ := ha
    exact Nat.lt_of_lt_of_le hlt hr
  | getData k =>
    obtain ⟨hlt, rfl⟩ := ha
    exact Nat.lt_of_lt_of_le hlt hr.right
  | reset | resetLazy | crc16 _ | getRequest | getResponse | getLength | getChecksum | getStatus => exact ha.elim
  | setRequest _ | setResponse _ | addData _ | pack | packData _ _ | packError _ _ _ | packId _ | getByte => exact hc.elim

theorem readsWrittenOnly_drawsNothing {role : Role} (h : readsWrittenOnly role s i) : drawsNothing i s := by
  cases i with
  | getData k => exact h.left
  | _ => trivial

/-- No operation that a receiver's contract allows is refused. -/
theorem receiver_not_refusable (hc : contractAllows .receiver s i) (hs : lengthChecked s) : ¬refusable i s := by
  cases i with
  | construct b => exact fun ⟨hl, h10⟩ => hl (hs h10)
  | bytes | getData _ => exact not_not.2 hc
  | reset | resetLazy | crc16 _ | getRequest | getResponse | getLength | getChecksum | getStatus => exact id
  | setRequest _ | setResponse _ | addData _ | pack | packData _ _ | packError _ _ _ | packId _ | getByte => exact hc.elim

/-- Under a receiver's contract the length stays checked, so that nothing is refused. -/
theorem alike_receiver_step (h : Alike True known s t ∧ lengthChecked s) (hc : contractAllows .receiver s i)
    (hr : readsWrittenOnly .receiver s i) :
    answersAlike False (fun s' t' => s'.results.map id = t'.results.map id ∧
      Alike True (fun a => known a ∨ writesCell i s a) s' t' ∧ lengthChecked s') (exec i s) (exec i t) := by
  obtain ⟨ha, hl⟩ := h
  obtain ⟨hstop, -⟩ | ⟨s', t', hs, ht, hres, hst⟩ :=
    ha.exec_reading (readsWrittenOnly_drawsNothing hr) fun a _ hcell => Or.inr (receiver_reads_counted hc hr hcell)
  · exact absurd hstop (receiver_not_refusable hc hl)
  · exact Or.inr ⟨s', t', hs, ht, congrArg _ hres, hst, exec_lengthChecked hc hl hs⟩

end Sys2Proof.Machine
end

section
/-! SUPPORT. A reception after a lazy reset, up to its length of one (43_reset_access.md R158). -/

namespace Sys2Proof.Machine

/-- A reset receiver after the ten framing bytes of a frame with a length of one, the payload byte still to come. -/
def awaitingOneByte (t : State) : State :=
  { t with header := Config.magic, length := 0x0001#16, internalCounter := 10 }.settled .packetBuilding

variable {s : State}

theorem awaitingOneByte_lengthFits (hc : 0 < s.capacity.val) : (awaitingOneByte s).lengthFits := hc

/-- The payload byte still to come is the cell that the reset left (43_reset_access.md R151). -/
theorem awaitingOneByte_validBytes (s : State) : (awaitingOneByte s).validBytes = [Memory.read s.data 0] := rfl

theorem framingBytes_awaitingOneByte (h : s.registersReset) :
    framingBytes (awaitingOneByte s) =
      [0x55#8, 0x55#8, 0x00#8, 0x00#8, 0x00#8, 0x00#8, 0x00#8, 0x00#8, 0x01#8, 0x00#8] := by
  obtain ⟨-, hck : (awaitingOneByte s).checksum = 0x0000#16, hreq : (awaitingOneByte s).request = 0x0000#16,
    hresp : (awaitingOneByte s).response = 0x0000#16, -⟩ := h
  have hhead : (awaitingOneByte s).header = Config.magic := rfl
  have hlen : (awaitingOneByte s).length = 0x0001#16 := rfl
  rw [framingBytes, hhead, hlen, hck, hreq, hresp]
  decide

/-- A reset receiver takes in the ten framing bytes (42_inbound.md R131 to R137). -/
theorem feed_awaitingOneByte (h : s.registersReset) (hc : 0 < s.capacity.val) :
    feed [0x55#8, 0x55#8, 0x00#8, 0x00#8, 0x00#8, 0x00#8, 0x00#8, 0x00#8, 0x01#8, 0x00#8] s =
      (List.replicate 10 .packetBuilding, .next (awaitingOneByte s)) := by
  obtain ⟨-, -, -, -, -, hp, -⟩ := id h
  have hhead := feed_head (f := awaitingOneByte s) rfl hp
  have hlast : execConstruct (hi8 (awaitingOneByte s).length)
      ((headTaken (awaitingOneByte s) s).settled .packetBuilding) = .next (awaitingOneByte s) :=
    (execConstruct_lengthHigh _ s).trans (lengthDecoded_fits
      (s := (fieldsTaken (awaitingOneByte s) s).settled .packetBuilding) (by simp [awaitingOneByte]) hc)
  have hfeed := feed_append (cs := [hi8 (awaitingOneByte s).length]) hhead
  rw [feed_cons hlast rfl] at hfeed
  rw [← framingBytes_awaitingOneByte h]
  exact hfeed

end Sys2Proof.Machine
end

section
/-! PROOFS. The statements of 43_reset_access.md. -/

namespace Sys2Proof.Machine

/-- Settles O53: such a script keeps the two runs alike, and every operation of it gives one result. -/
theorem resetsAgreeOnScriptsReadingWrittenCells : Obligations.ResetsAgreeOnScriptsReadingWrittenCells := by
  intro script u v s t hc hw hs ht hok
  obtain ⟨hres, hend⟩ := runOps_alike (f := id) (stops := True) (R := Alike True)
    (fun h ⟨hd, hr⟩ => (h.exec_reading hd hr).mono (fun _ => trivial) fun _ _ ⟨hres, hst⟩ => ⟨congrArg _ hres, hst⟩)
    script (resets_alike hc hw hs ht) hok
  simp only [List.map_id] at hres
  refine ⟨hres, hend.imp And.right ?_⟩
  rintro ⟨s', t', hs', ht', hst⟩
  exact ⟨s', t', hs', ht', hst.agreesOn fun _ => Or.inr⟩

/-- Settles O54: without CONSTRUCT the payload is all written, so nothing stale is read and nothing is refused. -/
theorem resetsAgreeOnScriptsWithoutConstruct : Obligations.ResetsAgreeOnScriptsWithoutConstruct := by
  intro script u v s t hc hw hs ht hno hok
  have hlen := reset_length hs
  obtain ⟨hres, ⟨hstop, -⟩ | ⟨s', t', hs', ht', hst, -, hk⟩⟩ := runOps_alike
    (R := fun known s t => Alike True known s t ∧ payloadKnown known s)
    (fun h ⟨hi, hd⟩ => alike_payloadKnown_step h hi hd) script
    ⟨resets_alike hc hw hs ht, payloadKnown_of_length_zero hlen⟩ (scriptKeeps_of_no_construct hno hok)
  · exact hstop.elim
  · simp only [List.map_id] at hres
    exact ⟨hres, s', t', hs', ht', hst.agreesOn hk⟩

/-- Settles O55: a stale read reaches `checksum` by PACK only, and no status but by `checksum`. -/
theorem resetsAgreeOnStatusesAndRegisters : Obligations.ResetsAgreeOnStatusesAndRegisters := by
  intro script u v s t hc hw hs ht hok
  obtain ⟨hres, hend⟩ := runOps_alike (f := (·.st)) (stops := True) (R := Alike True)
    (fun h hpack => h.exec_statuses (f := id) (fun _ _ hxy => hxy.right trivial) fun _ => hpack)
    script (resets_alike hc hw hs ht) hok
  refine ⟨hres, hend.imp And.right ?_⟩
  rintro ⟨s', t', hs', ht', hst⟩
  exact ⟨s', t', hs', ht', hst.agreesOn fun _ => Or.inr⟩

/-- Settles O56: whatever the script, `checksum` is all that a stale read reaches, and validation all that it decides. -/
theorem resetsAgreeOnEverySequence : Obligations.ResetsAgreeOnEverySequence := by
  intro script u v s t hc hw hs ht
  obtain ⟨hres, hend⟩ := runOps_alike (f := (·.st.upToValidation)) (stops := True) (R := Alike False)
    (fun h _ => h.exec_statuses (f := Status.upToValidation) (fun _ _ hxy => hxy.left) False.elim)
    script (resets_alike hc hw hs ht) (scriptKeeps_of_forall (ok := fun _ _ _ => True) (fun _ _ _ => trivial) script s)
  refine ⟨hres, hend.imp And.right ?_⟩
  rintro ⟨s', t', hs', ht', hst⟩
  exact ⟨s', t', hs', ht', hst.agreesUpToChecksum fun _ => Or.inr⟩

/-- Settles O9: a transmitter's script has no CONSTRUCT; a receiver reads only what CONSTRUCT has counted. -/
theorem lazyResetActsLikeFullReset : Obligations.LazyResetActsLikeFullReset := by
  intro role script u v s t hc hw hs ht hok
  have hlen := reset_length hs
  cases role with
  | receiver =>
    obtain ⟨hres, ⟨hstop, -⟩ | ⟨s', t', hs', ht', hst, -⟩⟩ := runOps_alike
      (R := fun known s t => Alike True known s t ∧ lengthChecked s)
      (fun h ⟨hc, hr⟩ => alike_receiver_step h hc hr) script
      ⟨resets_alike hc hw hs ht, fun _ => lengthFits_of_length_zero hlen⟩ (scriptKeeps_of_contract hok)
    · exact hstop.elim
    · simp only [List.map_id] at hres
      exact ⟨hres, s', t', hs', ht', hst.agreesOn hst.counted⟩
  | transmitter =>
    obtain ⟨hres, ⟨hstop, -⟩ | ⟨s', t', hs', ht', hst, -, hk⟩⟩ := runOps_alike
      (R := fun known s t => Alike True known s t ∧ payloadKnown known s)
      (fun h ⟨hc, hr⟩ => alike_payloadKnown_step h (transmitter_no_construct hc) (readsWrittenOnly_drawsNothing hr)) script
      ⟨resets_alike hc hw hs ht, payloadKnown_of_length_zero hlen⟩ (scriptKeeps_of_contract hok)
    · exact hstop.elim
    · simp only [List.map_id] at hres
      exact ⟨hres, s', t', hs', ht', hst.agreesOn hk⟩

/-- Settles O10: the ten framing bytes make the old cell 0 part of the frame, and each of the four operations reads it. -/
theorem staleByteShowsDuringReception : Obligations.StaleByteShowsDuringReception := by
  intro s t hc ht
  cases ht
  have hreset : (s.clearFraming.settled .ok).registersReset := clearFraming_registersReset s
  have hl := awaitingOneByte_lengthFits (s := s.clearFraming.settled .ok) hc
  have hframing := framingBytes_awaitingOneByte hreset
  refine ⟨awaitingOneByte (s.clearFraming.settled .ok), feed_awaitingOneByte hreset hc, ?_,
    execGetData_valid Nat.one_pos hc,
    execGetByte_byte (Nat.lt_succ_self 10) ((imageByte_payload (Nat.le_refl 10)).trans (memRead_of_lt hc)), ?_⟩
  · refine (execBytes_fits hl).trans ?_
    rw [hframing, awaitingOneByte_validBytes]
    rfl
  · refine (commitFrame_fits hl).trans ?_
    rw [coveredBytes_eq_drop, hframing, awaitingOneByte_validBytes]
    rfl

/-- Settles O7: RESET clears the framing and the cells, and what is left is the power-on state. -/
theorem fullResetEndsInPowerOnState : Obligations.FullResetEndsInPowerOnState := fun _ => rfl

/-- Settles O8: RESET_LAZY clears the framing only. -/
theorem lazyResetKeepsThePayloadCells : Obligations.LazyResetKeepsThePayloadCells := fun _ => rfl

/-- Settles O38: each accessor answers Ok with its register; the status words are those of R81. -/
theorem accessorsReturnTheirRegister : Obligations.AccessorsReturnTheirRegister := by
  refine fun s => ⟨rfl, rfl, rfl, rfl, fun c hc hst => ?_⟩
  have hword : statusWord c.1 = c.2 := by
    clear hst
    revert c
    decide
  rw [← hword, ← hst]
  rfl

/-- Settles O39: the three cases of R157. -/
theorem getDataReturnsValidBytesOnly : Obligations.GetDataReturnsValidBytesOnly :=
  fun _ _ => ⟨execGetData_valid, execGetData_refused, fun hl => ⟨_, execGetData_drawn hl⟩⟩

end Sys2Proof.Machine
end

section
/-! SUPPORT. The Capability Descriptor (44_capability_descriptor.md R170 to R173): construction gives a name of the full
width, and on records with such a name the parser undoes the packer. -/

namespace Sys2Proof.Machine

theorem Descriptor.wf_iff {d : Descriptor} : d.wf = true ↔ d.name.length = descriptorNameWidth := beq_iff_eq

/-! ### Construction (44_capability_descriptor.md R172) -/

section
variable {major minor patch : Byte} {size : Halfword} {name : List Byte}

theorem Descriptor.make?_fits (h : name.length ≤ descriptorNameWidth) :
    Descriptor.make? major minor patch size name =
      some ⟨major, minor, patch, size, name ++ List.replicate (descriptorNameWidth - name.length) 0x00#8⟩ :=
  if_pos h

theorem Descriptor.make?_tooLong (h : descriptorNameWidth < name.length) :
    Descriptor.make? major minor patch size name = none :=
  if_neg (Nat.not_le_of_gt h)

theorem Descriptor.make?_wf {d : Descriptor} (h : Descriptor.make? major minor patch size name = some d) :
    d.wf = true := by
  rcases Nat.lt_or_ge descriptorNameWidth name.length with hlong | hfits
  · simp [make?_tooLong hlong] at h
  · rw [make?_fits hfits, Option.some.injEq] at h
    subst h
    simp [wf_iff, Nat.add_sub_cancel' hfits]

end

/-! ### The packed form and the parser (44_capability_descriptor.md R171, R173) -/

theorem Descriptor.toPacked_eq (d : Descriptor) :
    d.toPacked = d.major :: d.minor :: d.patch :: lo8 d.maxPacketSize :: hi8 d.maxPacketSize :: d.name := rfl

theorem Descriptor.toPacked_length {d : Descriptor} (h : d.wf = true) : d.toPacked.length = descriptorSize := by
  simp [toPacked_eq, wf_iff.mp h, descriptorNameWidth, descriptorSize]

theorem Descriptor.ofPacked?_long {bs : List Byte} (h : descriptorSize ≤ bs.length) :
    Descriptor.ofPacked? bs = some ⟨bs.getD 0 0, bs.getD 1 0, bs.getD 2 0, halfword (bs.getD 4 0) (bs.getD 3 0),
      (bs.drop 5).take descriptorNameWidth⟩ :=
  if_pos h

/-- The name fills its field, so the parser's cut takes all of it; the lanes of the size join to it again. -/
theorem Descriptor.ofPacked?_toPacked {d : Descriptor} (h : d.wf = true) :
    Descriptor.ofPacked? d.toPacked = some d := by
  have hname : d.name.take descriptorNameWidth = d.name := List.take_of_length_le (wf_iff.mp h).le
  rw [ofPacked?_long (toPacked_length h).ge, toPacked_eq]
  simp [hname]

end Sys2Proof.Machine
end

section
/-! PROOFS. The statement of 44_capability_descriptor.md. -/

namespace Sys2Proof.Machine

/-- Settles O52: a constructed record has a name of the full width, where packing and parsing are inverse. -/
theorem descriptorRoundTrips : Obligations.DescriptorRoundTrips := by
  refine ⟨fun major minor patch size name hfits => ?_, fun _ _ _ _ _ => Descriptor.make?_tooLong,
    fun _ hlong => ⟨_, Descriptor.ofPacked?_long hlong⟩⟩
  have hmake := Descriptor.make?_fits (major := major) (minor := minor) (patch := patch) (size := size) hfits
  have hwf := Descriptor.make?_wf hmake
  exact ⟨_, hmake, Descriptor.toPacked_length hwf, Descriptor.ofPacked?_toPacked hwf, rfl, rfl, rfl, rfl, rfl⟩

end Sys2Proof.Machine
end

section
/-! SUPPORT. When an operation is refused (60_exceptions.md R190): it reads or writes a cell that does not exist, which
takes a length above CAPACITY. One lemma for each operation with cases, then all operations together. -/

namespace Sys2Proof.Machine

variable {s : State}

/-- The answer is a next state, or it is the refused access, which `stops` allows. -/
def refusedOnlyIf (stops : Prop) (o : Answer) : Prop :=
  (stops ∧ o = .refused .dataIndexOutOfRange) ∨ ∃ t, o = .next t

variable {stops : Prop} {o : Answer}

theorem refusedOnlyIf_next (t : State) : refusedOnlyIf stops (.next t) := Or.inr ⟨t, rfl⟩

theorem refusedOnlyIf_refused (h : stops) : refusedOnlyIf stops (.refused .dataIndexOutOfRange) := Or.inl ⟨h, rfl⟩

theorem refusedOnlyIf.completes (h : refusedOnlyIf stops o) (hs : ¬stops) : ∃ t, o = .next t :=
  h.resolve_left fun hr => hs hr.left

theorem refusedOnlyIf.refused {r : Refusal} (h : refusedOnlyIf stops o) (hr : o = .refused r) :
    stops ∧ r = .dataIndexOutOfRange := by
  obtain ⟨hs, ho⟩ | ⟨t, ho⟩ := h
  · rw [ho] at hr
    cases hr
    exact ⟨hs, rfl⟩
  · rw [ho] at hr
    cases hr

/-! ### The outbound operations and the accessor with cases -/

/-- An append that fits writes only cells that exist (41_outbound.md R112). -/
theorem appendPayload_completes (q : List Byte) (s : State) : ∃ t, appendPayload q s = .next t := by
  rcases Nat.lt_or_ge s.capacity.val (q.length + s.length.toNat) with hover | hfit
  · exact ⟨_, appendPayload_overflow hover⟩
  · obtain ⟨m, e, -⟩ := appendPayload_fits hfit
    exact ⟨_, e⟩

/-- A builder commits a payload that it has just appended, so its length fits (41_outbound.md R114). -/
theorem buildFrame_completes (a b : Halfword) (q : List Byte) (s : State) : ∃ t, buildFrame a b q s = .next t := by
  obtain ⟨t, ht⟩ := appendPayload_completes q ((s.clearFraming.withRequest a).withResponse b)
  have hfit : t.lengthFits := appendPayload_lengthFits (lengthFits_of_length_zero rfl) ht
  rw [buildFrame, ht, andThen_next]
  split
  · exact ⟨t, rfl⟩
  · exact ⟨_, commitFrame_fits hfit⟩

theorem commitFrame_refusedOnlyIf (s : State) : refusedOnlyIf (¬s.lengthFits) (commitFrame s) := by
  by_cases hl : s.lengthFits
  · rw [commitFrame_fits hl]
    exact refusedOnlyIf_next _
  · rw [commitFrame_refused hl]
    exact refusedOnlyIf_refused hl

theorem execBytes_refusedOnlyIf (s : State) : refusedOnlyIf (¬s.lengthFits) (execBytes s) := by
  by_cases hl : s.lengthFits
  · rw [execBytes_fits hl]
    exact refusedOnlyIf_next _
  · rw [execBytes_refused hl]
    exact refusedOnlyIf_refused hl

/-- Inside the image of a packet whose length fits there is a byte at every cursor (41_outbound.md R118). -/
theorem execGetByte_refusedOnlyIf (s : State) : refusedOnlyIf (¬s.lengthFits) (execGetByte s) := by
  rcases Nat.lt_or_ge s.internalCounter (10 + s.length.toNat) with hp | hp
  · cases hb : imageByte s s.internalCounter with
    | some b =>
      rw [execGetByte_byte hp hb]
      exact refusedOnlyIf_next _
    | none =>
      rw [execGetByte_refused hp hb]
      refine refusedOnlyIf_refused fun hl => ?_
      rw [imageByte_eq (image_eq hl) (by rwa [imageBytes_length])] at hb
      cases hb
  · rw [execGetByte_finished hp]
    exact refusedOnlyIf_next _

theorem execGetData_refusedOnlyIf (a : Halfword) (s : State) :
    refusedOnlyIf (¬s.lengthFits) (execGetData a s) := by
  rcases Nat.lt_or_ge a.toNat s.length.toNat with hl | hl
  · rcases Nat.lt_or_ge a.toNat s.capacity.val with hc | hc
    · rw [execGetData_valid hl hc]
      exact refusedOnlyIf_next _
    · rw [execGetData_refused hl hc]
      exact refusedOnlyIf_refused (Nat.not_le.2 (Nat.lt_of_le_of_lt hc hl))
  · rw [execGetData_drawn hl]
    exact refusedOnlyIf_next _

/-! ### CONSTRUCT -/

/-- The decoded length is zero, too large, or one that the buffer holds (42_inbound.md R137). -/
theorem lengthDecoded_completes (s : State) : ∃ t, lengthDecoded s = .next t := by
  rcases Nat.lt_or_ge s.capacity.val s.length.toNat with hover | hfit
  · exact ⟨_, lengthDecoded_rejected hover⟩
  · by_cases hz : s.length = 0x0000#16
    · exact ⟨_, (lengthDecoded_zero hz).trans (completeFrame_settled hfit)⟩
    · exact ⟨_, lengthDecoded_fits hz hfit⟩

/-- No position up to 9 touches the buffer, but to complete a frame of length 0 (42_inbound.md R131 to R137). -/
theorem execConstruct_field_completes (b : Byte) (hp : s.internalCounter ≤ 9) : ∃ t, execConstruct b s = .next t := by
  obtain hlane | h9 := Nat.lt_or_eq_of_le hp
  · by_cases hb : s.internalCounter ≤ 1 → b = Config.magicByte
    · exact ⟨_, execConstruct_lane_stored (Nat.le_of_lt_succ hlane) hb⟩
    · obtain ⟨hp1, hne⟩ := Classical.not_imp.1 hb
      exact ⟨_, execConstruct_header_lost hp1 hne⟩
  · rw [execConstruct_lengthHigh_stored h9]
    exact lengthDecoded_completes _

/-- From position 10 on a byte inside the frame is refused only if its cell, below `length`, does not exist
(42_inbound.md R138). -/
theorem execConstruct_payload_refusedOnlyIf (b : Byte) (hp : 10 ≤ s.internalCounter) :
    refusedOnlyIf (¬s.lengthFits) (execConstruct b s) := by
  by_cases hend : s.length.toNat ≤ s.dataLengthCounter.toNat ∨ s.length.toNat ≤ s.internalCounter - 10
  · rw [execConstruct_payload_dropped hp hend]
    exact refusedOnlyIf_next _
  · rw [not_or, not_le, not_le] at hend
    obtain ⟨hd, hi⟩ := hend
    rcases Nat.lt_or_ge s.dataLengthCounter.toNat s.capacity.val with hcap | hcap
    · obtain ⟨-, e⟩ | ⟨-, e⟩ := execConstruct_payload_kept (b := b) hp hd hi hcap
      · exact Or.inr ⟨_, e⟩
      · exact Or.inr ⟨_, e⟩
    · rw [execConstruct_payload_refused hp hd hi hcap]
      exact refusedOnlyIf_refused (Nat.not_le.2 (Nat.lt_of_le_of_lt hcap hd))

theorem execConstruct_refusedOnlyIf (b : Byte) (s : State) :
    refusedOnlyIf (¬s.lengthFits ∧ 10 ≤ s.internalCounter) (execConstruct b s) := by
  rcases Nat.lt_or_ge s.internalCounter 10 with hp | hp
  · exact Or.inr (execConstruct_field_completes b (Nat.le_of_lt_succ hp))
  · exact (execConstruct_payload_refusedOnlyIf b hp).imp_left fun ⟨hl, e⟩ => ⟨⟨hl, hp⟩, e⟩

/-! ### All operations -/

/-- Every operation answers a next state, or may be refused and then is for the one reason. -/
theorem exec_refusedOnlyIf (i : Instr) (s : State) : refusedOnlyIf (refusable i s) (exec i s) := by
  cases i with
  | addData q => exact Or.inr (appendPayload_completes q s)
  | pack => exact commitFrame_refusedOnlyIf s
  | packData a q => exact Or.inr (buildFrame_completes a _ q s)
  | packError a b q => exact Or.inr (buildFrame_completes a b q s)
  | packId q => exact Or.inr (buildFrame_completes _ _ q s)
  | bytes => exact execBytes_refusedOnlyIf s
  | getByte => exact execGetByte_refusedOnlyIf s
  | construct b => exact execConstruct_refusedOnlyIf b s
  | getData a => exact execGetData_refusedOnlyIf a s
  | reset | resetLazy | crc16 _ | setRequest _ | setResponse _ | getRequest | getResponse | getLength | getChecksum
  | getStatus => exact refusedOnlyIf_next _

/-- A step that is refused met a code outside the table, or ran an operation that is refused. -/
theorem step_refused {r : Refusal} (h : step s = .refused r) :
    (∃ c rest, s.commands = c :: rest ∧ opcodeDefined c.op = false ∧ r = .unknownOperation c.op) ∨
    ∃ c rest i, s.commands = c :: rest ∧ decode c = .instr i ∧ exec i { s with commands := rest } = .refused r := by
  cases hc : s.commands with
  | nil =>
    rw [step_of_no_command hc] at h
    cases h
  | cons c rest =>
    obtain ⟨-, i, hd⟩ | ⟨hu, hd⟩ := decode_cases c
    · exact Or.inr ⟨c, rest, i, rfl, hd, step_of_decoded hc hd ▸ h⟩
    · rw [step_of_unknown hc hd] at h
      cases h
      exact Or.inl ⟨c, rest, rfl, hu, rfl⟩

end Sys2Proof.Machine
end

section
/-! SUPPORT. The invariant of a run that keeps the usage contract (70_reset_and_hazards.md R203 to R208, log 14): every
operation that the contract allows keeps it, for a receiver and for a transmitter. -/

namespace Sys2Proof.Machine

variable {i : Instr} {s t : State}

theorem exec_internalCounter_kept (h : exec i s = .next t) (hw : .internalCounter ∉ writes i s) :
    t.internalCounter = s.internalCounter :=
  (exec_framed h).registers _ hw

/-- What a frame's checksum covers, the checksum and the header stand in neither the counter nor the status. -/
theorem exec_finalised (h : exec i s = .next t) (hw : writes i s ⊆ [.internalCounter, .status]) (hs : s.finalised) :
    t.finalised := by
  have hkept (r : Register) (hr : r ∉ [Register.internalCounter, .status]) : s.sameIn t r :=
    (exec_framed h).registers r fun hm => hr (hw hm)
  have hcrc : frameCrc t = frameCrc s :=
    frameCrc_congr (hkept .request (by simp)) (hkept .response (by simp)) (hkept .length (by simp))
      fun a _ => hkept .data (by simp) a
  have hheader : t.header = s.header := hkept .header (by simp)
  have hchecksum : t.checksum = s.checksum := hkept .checksum (by simp)
  rwa [State.finalised, hheader, hchecksum, hcrc]

/-! ### A transmitter -/

/-- At the start of a frame nothing has been emitted, so the frame need not be finalised. -/
theorem transmitterOk_of_counter_zero (hl : s.lengthFits) (hd : s.dataLengthCounter = 0x0000#16)
    (hp : s.internalCounter = 0) : s.transmitterOk :=
  ⟨hl, hd, hp ▸ Nat.zero_le _, fun hne => absurd hp hne⟩

theorem buildFrame_transmitterOk {a b : Halfword} {q : List Byte} (h : buildFrame a b q s = .next t) :
    t.transmitterOk := by
  have hl := buildFrame_lengthFits h
  obtain ⟨-, rfl⟩ | ⟨-, -, et, -⟩ := buildFrame_next h
  · exact transmitterOk_of_counter_zero hl rfl rfl
  · exact transmitterOk_of_counter_zero hl (congrArg State.dataLengthCounter et) (congrArg State.internalCounter et)

/-- GET_BYTE moves the cursor on inside the image of a finalised frame, and from its end back to 0 (41_outbound.md
R118). -/
theorem execGetByte_transmitterOk (hfin : s.finalised) (hs : s.transmitterOk) (h : execGetByte s = .next t) :
    t.transmitterOk := by
  have hfin' : t.finalised := exec_finalised (i := .getByte) h (by simp [writes]) hfin
  obtain ⟨hl, hd, -, -⟩ := hs
  obtain ⟨hlt, b, -, rfl⟩ | ⟨-, rfl⟩ := execGetByte_next h
  · exact ⟨hl, hd, hlt, fun _ => hfin'⟩
  · exact transmitterOk_of_counter_zero hl hd rfl

theorem exec_transmitterOk_of_no_writes (hw : writes i s = []) (hs : s.transmitterOk) (h : exec i s = .next t) :
    t.transmitterOk := by
  obtain ⟨hl, hd, hp, hfin⟩ := hs
  have hlen : t.length = s.length := exec_length_kept h (by simp [hw])
  have hctr : t.internalCounter = s.internalCounter := exec_internalCounter_kept h (by simp [hw])
  have hcount : t.dataLengthCounter = s.dataLengthCounter := exec_dataLengthCounter_kept h (by simp [hw])
  refine ⟨lengthFits_of_length_kept hl h (by simp [hw]), hcount.trans hd, ?_, ?_⟩
  · rwa [hctr, hlen]
  · rw [hctr]
    exact fun hne => exec_finalised h (by simp [hw]) (hfin hne)

/-- Fields, payload and commit are written at cursor 0, where they may be; the builders go back to it. -/
theorem exec_transmitterOk (hc : contractAllows .transmitter s i) (hs : s.transmitterOk) (h : exec i s = .next t) :
    t.transmitterOk := by
  obtain ⟨hl, hd, -, -⟩ := id hs
  have hl' : t.lengthFits := lengthBoundIsKept i s t hl h fun b hb => absurd hb (transmitter_no_construct hc b)
  cases i with
  | reset | resetLazy =>
    cases h
    exact transmitterOk_of_counter_zero hl' rfl rfl
  | setRequest _ | setResponse _ | addData _ | pack =>
    exact transmitterOk_of_counter_zero hl' ((exec_dataLengthCounter_kept h (by simp [writes])).trans hd)
      ((exec_internalCounter_kept h (by simp [writes])).trans hc)
  | packData a q => exact buildFrame_transmitterOk h
  | packError a b q => exact buildFrame_transmitterOk h
  | packId q => exact buildFrame_transmitterOk h
  | getByte => exact execGetByte_transmitterOk hc hs h
  | construct b => exact hc.elim
  | crc16 _ | bytes | getRequest | getResponse | getLength | getChecksum | getStatus | getData _ =>
    exact exec_transmitterOk_of_no_writes rfl hs h

/-! ### A receiver -/

theorem lengthChecked_of_receiverOk (hs : s.receiverOk) : lengthChecked s := by
  intro h10
  obtain ⟨h8, -⟩ | ⟨h9, -⟩ | ⟨-, hl, -⟩ := hs
  · omega
  · omega
  · exact hl

section
variable {b : Byte} (h : execConstruct b s = .next t)
include h

/-- Below position 10 no payload byte is counted (42_inbound.md R142). -/
theorem execConstruct_field_dataLengthCounter (hp : s.internalCounter ≤ 9) :
    t.dataLengthCounter = s.dataLengthCounter :=
  exec_dataLengthCounter_kept (i := .construct b) h fun hm =>
    absurd (dataLengthCounter_mem_constructWrites hm) (Nat.not_le_of_lt (Nat.lt_succ_of_le hp))

/-- Before position 8 the length is not written; there the position moves on to the length's high byte. -/
theorem execConstruct_receiverOk_below (hp : s.internalCounter ≤ 8) (hz : s.length = 0x0000#16)
    (hd : s.dataLengthCounter = 0x0000#16) : t.receiverOk := by
  have hd' : t.dataLengthCounter = 0x0000#16 :=
    (execConstruct_field_dataLengthCounter h (Nat.le_succ_of_le hp)).trans hd
  have hctr : t.internalCounter = 0 ∧ s.internalCounter ≤ 1 ∨ t.internalCounter = s.internalCounter + 1 := by
    obtain ⟨-, h1, h0⟩ | ⟨-, hmoved⟩ | ⟨-, h9, -⟩ := execConstruct_counter h
    · exact Or.inl ⟨h0, h1⟩
    · exact Or.inr hmoved
    · omega
  obtain hlt | h8 := Nat.lt_or_eq_of_le hp
  · have hlen : t.length = s.length := exec_length_kept (i := .construct b) h fun hm => by
      have := length_mem_constructWrites hm
      omega
    exact Or.inl ⟨by omega, hlen.trans hz, hd'⟩
  · exact Or.inr (Or.inl ⟨by omega, hd'⟩)

/-- Position 9 moves on only with a length that fits and is not zero (42_inbound.md R137). -/
theorem execConstruct_receiverOk_lengthHigh (h9 : s.internalCounter = 9) (hd : s.dataLengthCounter = 0x0000#16) :
    t.receiverOk := by
  have hd' : t.dataLengthCounter = 0x0000#16 := (execConstruct_field_dataLengthCounter h h9.le).trans hd
  obtain ⟨hp, -⟩ | ⟨-, hlen, rfl⟩ | ⟨-, -, rfl⟩ | ⟨-, -, st, -, rfl⟩ := execConstruct_field_next h9.le h
  · omega
  · obtain ⟨hpos, hfit⟩ := hlen h9
    refine Or.inr (Or.inr ⟨?_, hfit, counterWithinLength_of_counter_zero hd', ?_, fun _ => ?_⟩)
    · simp [h9]
    · simpa [h9] using hpos
    · simp [h9, hd]
  · exact Or.inr (Or.inl ⟨(laneStored_internalCounter b s).trans h9, hd'⟩)
  · exact Or.inr (Or.inl ⟨(laneStored_internalCounter b s).trans h9, hd'⟩)

/-- At a payload position both counters move on together, or the outcome is terminal (42_inbound.md R138, R139). -/
theorem execConstruct_receiverOk_payload (hp : 10 ≤ s.internalCounter) (hl : s.lengthFits)
    (hw : s.counterWithinLength) (hin : s.internalCounter < 10 + s.length.toNat)
    (hd : s.dataLengthCounter.toNat = s.internalCounter - 10) : t.receiverOk := by
  have hw' : t.counterWithinLength := execConstruct_payload_counterWithinLength hp hw h
  obtain ⟨-, rfl⟩ | ⟨-, -, -, hn, ⟨hmore, rfl⟩ | ⟨-, -, st, hst, rfl⟩⟩ := execConstruct_payload_next hp h
  · exact Or.inr (Or.inr ⟨hp, hl, hw', hin, nofun⟩)
  · have hin' : s.internalCounter + 1 < 10 + s.length.toNat := by omega
    have hd' : (s.dataLengthCounter + 1#16).toNat = s.internalCounter + 1 - 10 := by omega
    exact Or.inr (Or.inr ⟨Nat.le_succ_of_le hp, hl, hw', hin', fun _ => hd'⟩)
  · refine Or.inr (Or.inr ⟨hp, hl, hw', hin, fun hterm => ?_⟩)
    exact absurd (terminalOutcome_of_completion hst) (ne_true_of_eq_false hterm)

/-- The contract feeds no byte after a terminal outcome, so at a payload position the counters agree. -/
theorem execConstruct_receiverOk (hterm : terminalOutcome s.status = false) (hs : s.receiverOk) : t.receiverOk := by
  obtain ⟨hp, hz, hd⟩ | ⟨h9, hd⟩ | ⟨hp, hl, hw, hin, hd⟩ := hs
  · exact execConstruct_receiverOk_below h hp hz hd
  · exact execConstruct_receiverOk_lengthHigh h h9 hd
  · exact execConstruct_receiverOk_payload h hp hl hw hin (hd hterm)

end

theorem exec_receiverOk_of_no_writes (hw : writes i s = []) (hs : s.receiverOk) (h : exec i s = .next t) :
    t.receiverOk := by
  have hkept (r : Register) : s.sameIn t r := (exec_framed h).registers r (by simp [hw])
  have hlen : t.length = s.length := hkept .length
  have hctr : t.internalCounter = s.internalCounter := hkept .internalCounter
  have hcount : t.dataLengthCounter = s.dataLengthCounter := hkept .dataLengthCounter
  have hst : t.status = s.status := hkept .status
  simp only [State.receiverOk, State.lengthFits, State.counterWithinLength, hlen, hctr, hcount, hst, exec_capacity h]
  exact hs

/-- A receiver's contract allows the resets, CONSTRUCT, and operations that write no register. -/
theorem exec_receiverOk (hc : contractAllows .receiver s i) (hs : s.receiverOk) (h : exec i s = .next t) :
    t.receiverOk := by
  cases i with
  | reset | resetLazy =>
    cases h
    exact Or.inl ⟨Nat.zero_le 8, rfl, rfl⟩
  | construct b => exact execConstruct_receiverOk h hc hs
  | crc16 _ | bytes | getRequest | getResponse | getLength | getChecksum | getStatus | getData _ =>
    exact exec_receiverOk_of_no_writes rfl hs h
  | setRequest _ | setResponse _ | addData _ | pack | packData _ _ | packError _ _ _ | packId _ | getByte =>
    exact hc.elim

/-! ### Both directions -/

theorem contracted_not_refusable {role : Role} (hc : contractAllows role s i) (hs : s.contractOk role) :
    ¬refusable i s := by
  cases role with
  | receiver => exact receiver_not_refusable hc (lengthChecked_of_receiverOk hs)
  | transmitter =>
    obtain ⟨hl, -⟩ := hs
    exact not_refusable_of_lengthFits hl

theorem exec_contractOk {role : Role} (hc : contractAllows role s i) (hs : s.contractOk role)
    (h : exec i s = .next t) : t.contractOk role := by
  cases role with
  | receiver => exact exec_receiverOk hc hs h
  | transmitter => exact exec_transmitterOk hc hs h

end Sys2Proof.Machine
end

section
/-! PROOFS. The statements of 60_exceptions.md. -/

namespace Sys2Proof.Machine

/-- Settles O50: what the contract allows is not refused, so it answers a next state, and it keeps the invariant. -/
theorem contractedOperationCompletes : Obligations.ContractedOperationCompletes := by
  intro role i s hs hc
  obtain ⟨t, ht⟩ := (exec_refusedOnlyIf i s).completes (contracted_not_refusable hc hs)
  exact ⟨t, ht, exec_contractOk hc hs ht⟩

/-- Settles O31: CONSTRUCT is refused only from position 10 on while the length does not fit, and what it answers
carries one of its listed statuses. -/
theorem constructAlwaysAnswersItsStatus : Obligations.ConstructAlwaysAnswersItsStatus := by
  intro b s hs
  obtain ⟨t, ht⟩ := (execConstruct_refusedOnlyIf b s).completes fun ⟨hl, h10⟩ =>
    hs.elim (fun h9 => absurd h9 (Nat.not_le_of_lt h10)) hl
  exact ⟨t, ht, execConstruct_result ht, execConstruct_status ht⟩

/-- Settles O45: a defined code runs an operation, and no operation is refused while the length fits. -/
theorem stepIsRefusedOnlyAsStated : Obligations.StepIsRefusedOnlyAsStated := by
  intro s r h
  obtain hunknown | ⟨c, rest, i, -, -, he⟩ := step_refused h
  · exact Or.inl hunknown
  · obtain ⟨hstop, hr⟩ := (exec_refusedOnlyIf i { s with commands := rest }).refused he
    have hover : ¬s.lengthFits := fun hl => not_refusable_of_lengthFits (s := { s with commands := rest }) hl hstop
    exact Or.inr ⟨hr, Nat.lt_of_not_le hover⟩

end Sys2Proof.Machine
end

section
/-! SUPPORT. Cleared registers satisfy the invariant of a run that keeps the usage contract (70_reset_and_hazards.md R201,
R202, log 14). -/

namespace Sys2Proof.Machine

/-- With its registers cleared an instance stands at the start of a frame, whichever direction it is dedicated to. -/
theorem contractOk_of_registersReset {s : State} (h : s.registersReset) (role : Role) : s.contractOk role := by
  obtain ⟨-, -, -, -, hlen, hp, hd, -⟩ := h
  cases role with
  | receiver => exact Or.inl ⟨hp ▸ Nat.zero_le 8, hlen, hd⟩
  | transmitter => exact transmitterOk_of_counter_zero (lengthFits_of_length_zero hlen) hd hp

end Sys2Proof.Machine
end

section
/-! PROOFS. The statements of 70_reset_and_hazards.md. -/

namespace Sys2Proof.Machine

/-- Settles O51: power-on and either reset leave the registers cleared, whatever the state before. -/
theorem resetStartsAContractedRun : Obligations.ResetStartsAContractedRun := by
  refine ⟨fun cap => contractOk_of_registersReset (powerOn_registersReset cap), fun s t role h => ?reset,
    fun s t role h => ?resetLazy⟩
  case reset | resetLazy =>
    cases h
    exact contractOk_of_registersReset (clearFraming_registersReset s) role

end Sys2Proof.Machine
end
